-- ==== Sys2Proof/Word.lean ====
section
/-! DEFINITION. The word types of the TW-3380: memory is addressed in 16-bit words, from 0 to 262 143
(spec 00, "Memory and words"; 11, signals PA, PD, MA, MD). -/

namespace Sys2Proof

/-- A word of the organ memory: 16 bits (spec 00). -/
abbrev Word := BitVec 16

/-- A word address on PA or MA: 18 bits, 0 to 262 143 (spec 00, 11.7). -/
abbrev Addr := BitVec 18

/-- The frame count: 32 bits, which wraps (R59). -/
abbrev Frame := BitVec 32

/-- A division: 0, 1, 2 the manuals, 3 the pedal (spec 00, terms). -/
abbrev Division := Fin 4

/-- A pickup, owner of the link slot of its number (R60). -/
abbrev PickupNo := Fin 12

end Sys2Proof
end

