-- ==== Sys2Proof/Config.lean ====
section
/-! DEFINITION. What the part's design fixes: sizes of its collections and limits of its counters, each
with the rule that states it. The spec leaves no result of an event open, so there is no free value here. -/

namespace Sys2Proof.Config

/-- What a word of the organ memory that nothing has written reads as. DESIGN CHOICE (log entry 3, unsafe):
"a static RAM that has just been powered holds no meaningful contents" (R164). -/
def unwrittenWord : Word := 0

/-- Entries of the admission list (R3). -/
def admissionCapacity : Nat := 32
/-- Entries of the hold queue (R22). -/
def holdCapacity : Nat := 384
/-- Entries of the cue list (R98). -/
def cueCapacity : Nat := 64
/-- Entries of the chest write FIFO (R44). -/
def fifoCapacity : Nat := 16
/-- FIFO entries that must be free before a note entry is released (R26). -/
def noteSpace : Nat := 3
/-- Internal records of the report queue (R165). -/
def reportCapacity : Nat := 16
/-- Limit of the lost count and the lost total (R168). -/
def lostLimit : Nat := 65535
/-- The greatest holder count (R38). -/
def holderLimit : Nat := 7
/-- Entries of the position trail (R120). -/
def trailLength : Nat := 512
/-- Units of the position's fraction in one score unit: 16 fraction bits (R113). -/
def unitsPerSu : Nat := 65536
/-- The greatest integer position (R116). -/
def greatestStamp : Nat := 2147483647
/-- The greatest position: the greatest integer part with every fraction bit set (R132). -/
def greatestPosition : Nat := 2147483648 * 65536 - 1
/-- The lag credit's cap, in units of the fraction: 1023 su (R119). -/
def lagCap : Nat := 1023 * 65536
/-- The tempo at RESET and at an installation, before the limits (R117). -/
def resetTempo : Nat := 1920
/-- The anchor block's signature (R159). -/
def signature : Nat := 0x7A31
/-- Words of the anchor block (R158). -/
def anchorWords : Nat := 78
/-- Words of the organ memory (spec 00). -/
def memoryWords : Nat := 262144
/-- The stuck run that faults a pickup (R68). -/
def stuckLimit : Nat := 4
/-- The parity-failure run that faults a pickup (R68). -/
def parityLimit : Nat := 8
/-- The good run that recovers a pickup (R69). -/
def goodLimit : Nat := 4
/-- Frames of one setup value without its acknowledgement before the timeout (R81). -/
def valueFrameLimit : Nat := 50
/-- Status refreshes fall due at frame counts that are multiples of this (R171). -/
def refreshPeriod : Nat := 20

end Sys2Proof.Config
end

