-- ==== Sys2Proof/Syntax.lean ====
section
/-! DEFINITION. The commands of the block: one constructor per row of spec/opcode_table.json. The table
gives no operands; those here are what the rules say the event carries. -/

namespace Sys2Proof

/-- The blocks that raise reports (10.8, column "Raised by"). -/
inductive Block where
  | memoryPath | anchorLoader | admission | release | chest | link | matcher | tracker | run
  deriving DecidableEq, Repr

/-- The words of the run block that the run controller copies: anchor words 72, 73 and 74 (R135). -/
inductive RunWord where
  | stampLow | stampHigh | nominal
  deriving DecidableEq, Repr

/-- The order in which the tempo tracker (T), the cue matcher (M) and the run controller (R) take one
frame start. The start of a frame reaches each block as an event of its own (R59) and no rule orders
them: the sender chooses (log entry 10). -/
inductive FrameOrder where
  | tmr | trm | mtr | mrt | rtm | rmt
  deriving DecidableEq, Repr

/-- A command of the block: a row of the opcode table. -/
inductive Instr where
  /-- RESET (R164). -/
  | reset
  /-- SCORE_COMMIT (R3): a processor write of w3 of a score slot, kind not EMPTY. -/
  | scoreCommit (address : Addr) (value : Word)
  /-- EMPTY_COMMIT (R5): a processor write of w3 of a score slot, kind EMPTY. -/
  | emptyCommit (address : Addr) (value : Word)
  /-- SCORE_EDIT (R15): a processor write of w0, w1 or w2 of a score slot. -/
  | scoreEdit (address : Addr) (value : Word)
  /-- FETCH_READ_DONE (R6). -/
  | fetchReadDone
  /-- CHEST_WRITE (R56). -/
  | chestWrite (address : Addr) (value : Word)
  /-- CHEST_READ (R57). -/
  | chestRead (address : Addr)
  /-- LOG_STATUS_WRITE (R152). -/
  | logStatusWrite (address : Addr) (value : Word)
  /-- STOP_MASK_WRITE (R55): a write of anchor word 26 + 3d. -/
  | stopMaskWrite (division : Division) (value : Word)
  /-- PICKUP_COMMIT (R163): a write of anchor word 38 + 3k. -/
  | pickupCommit (pickup : PickupNo) (value : Word)
  /-- PICKUP_READ_DONE (R163). -/
  | pickupReadDone
  /-- RUN_BLOCK_WRITE (R135): a write of anchor word 72, 73 or 74. -/
  | runBlockWrite (which : RunWord) (value : Word)
  /-- COMMAND_NONE (R136): a write of 0 to word 75. -/
  | commandNone
  /-- START (R138): a write of 1 to word 75. -/
  | start
  /-- STOP (R139): a write of 2 to word 75. -/
  | stop
  /-- RESUME (R140): a write of 3 to word 75. -/
  | resume
  /-- COMMAND_UNKNOWN (R136): a write of 4 to 65 535 to word 75. -/
  | commandUnknown (value : Word)
  /-- CONSUMER_INDEX_WRITE (R169): a write of word 76. -/
  | consumerIndexWrite (value : Word)
  /-- ANCHOR_COMMIT (R157): a write of word 77. -/
  | anchorCommit (value : Word)
  /-- OTHER_WRITE (R150): a write to a held anchor word or to region Other. -/
  | otherWrite (address : Addr) (value : Word)
  /-- ANCHOR_READ_DONE (R158). -/
  | anchorReadDone
  /-- PORT_ACCESS_DONE (R155). -/
  | portAccessDone
  /-- CHEST_WRITE_DONE (R44). -/
  | chestWriteDone
  /-- WRITE_BACK_GRANT (R156). -/
  | writeBackGrant
  /-- REPORT_WORD_DONE (R167). -/
  | reportWordDone
  /-- FRAME_START (R59), with the CANCEL input (true: asserted) and the WINDOK input (true: high) as
  sampled at this frame start (R141, R145). -/
  | frameStart (cancel windok : Bool) (order : FrameOrder)
  /-- REPEAT_GAP_DUE (R43). -/
  | repeatGapDue
  /-- PENDING_ON_WRITE (R43). -/
  | pendingOnWrite
  /-- WAIT_EXPIRY (R110). -/
  | waitExpiry
  /-- WINDOW_CLOSE (R90). -/
  | windowClose
  /-- CANCEL_ASSERT (R142). -/
  | cancelAssert
  /-- CANCEL_RELEASE (R141). -/
  | cancelRelease
  /-- WIND_CONFIRMED (R146). -/
  | windConfirmed
  /-- STALE_WAIT_CLEAR_ANSWER (R130). -/
  | staleWaitClearAnswer
  /-- WIND_LIMIT (R147). -/
  | windLimit
  /-- WIND_DROP (R148). -/
  | windDrop
  /-- HOLD_EXPIRY (R144). -/
  | holdExpiry
  /-- SLOT_EVENT (R60): the eight bits sampled in LSN slot k, first bit time most significant (R181). -/
  | slotEvent (pickup : PickupNo) (bits : BitVec 8)
  /-- TIMEOUT (R81). -/
  | timeout (pickup : PickupNo)
  /-- RELEASE (R25). -/
  | release
  /-- SWEEP_WRITE (R48). -/
  | sweepWrite
  /-- SWEEP_END (R48). -/
  | sweepEnd
  /-- REPORT_TAKEN (R165): the report writer takes the oldest report raised by this block. -/
  | reportTaken (block : Block)
  /-- RECORD_WRITE_BEGIN (R167). -/
  | recordWriteBegin
  /-- REFRESH_BEGIN (R171). -/
  | refreshBegin
  deriving DecidableEq, Repr

end Sys2Proof
end

