-- ==== Sys2Proof/WellFormed.lean ====
section
/-! DEFINITION. Which commands spell their row: the static conditions a row puts on its operands. The
meanings do not rely on them; the memory path decodes every access by its address and value (R150). -/

namespace Sys2Proof

/-- The address lies outside the anchor block, words 0 to 77 (R150). -/
def Addr.outsideAnchor (a : Addr) : Bool := Config.anchorWords ≤ a.toNat

/-- The kind field of a commit word is EMPTY: bits 15 to 13 are 0 (R176). -/
def Word.kindIsEmpty (v : Word) : Bool := v.toNat / 8192 == 0

/-- The anchor word is live or copied: a write to it is handed to a block of its own row (R151). -/
def Addr.isLiveAnchorWord (a : Addr) : Bool :=
  let n := a.toNat
  (24 ≤ n && n < 72 && n % 3 == 2) || (72 ≤ n && n < 78)

/-- The command spells its row. -/
def Instr.wellFormed : Instr → Bool
  | .scoreCommit a v => Addr.outsideAnchor a && !Word.kindIsEmpty v
  | .emptyCommit a v => Addr.outsideAnchor a && Word.kindIsEmpty v
  | .scoreEdit a _ => Addr.outsideAnchor a
  | .chestWrite a _ => Addr.outsideAnchor a
  | .chestRead a => Addr.outsideAnchor a
  | .logStatusWrite a _ => Addr.outsideAnchor a
  | .otherWrite a _ => !Addr.isLiveAnchorWord a
  | .commandUnknown v => 4 ≤ v.toNat
  | .reset | .fetchReadDone | .stopMaskWrite _ _ | .pickupCommit _ _ | .pickupReadDone
  | .runBlockWrite _ _ | .commandNone | .start | .stop | .resume | .consumerIndexWrite _
  | .anchorCommit _ | .anchorReadDone | .portAccessDone | .chestWriteDone | .writeBackGrant
  | .reportWordDone | .frameStart _ _ _ | .repeatGapDue | .pendingOnWrite | .waitExpiry
  | .windowClose | .cancelAssert | .cancelRelease | .windConfirmed | .staleWaitClearAnswer
  | .windLimit | .windDrop | .holdExpiry | .slotEvent _ _ | .timeout _ | .release | .sweepWrite
  | .sweepEnd | .reportTaken _ | .recordWriteBegin | .refreshBegin => true

end Sys2Proof
end

