-- ==== Sys2Proof/Decode.lean ====
section
/-! DEFINITION. The command a word spells by the bits of spec/opcode_table.json. No row of the table gives
bits ("n_rows_with_fixed": 0, spec 98): the block's commands are events, so no word spells one. -/

namespace Sys2Proof

/-- The command that a word of `nbits` bits spells by the table: none, since no row gives bits. -/
def decodeTableWord (_nbits _w : Nat) : Option Instr := none

end Sys2Proof
end

