-- ==== Sys2Proof/Machine/State.lean ====
section
/-! DEFINITION. The state of the TW-3380 as plain data, block by block ("each block owns its own state",
spec 00), the reports, the outcomes, and the state at RESET. -/

namespace Sys2Proof.Machine

/-! ### Named codes -/

/-- Tracker states (R114). -/
inductive TrackerState where
  | idle | winding | leading | following | coasting | waiting | halted | stopping
  deriving DecidableEq, Repr

/-- Configuration states (R157). -/
inductive ConfigState where
  | unconfigured | loading | configured | deferred
  deriving DecidableEq, Repr

/-- Slot-map states (R2). -/
inductive SlotState where
  | free | pending | fetching | heldNote | heldCue
  deriving DecidableEq, Repr

/-- Pickup states (R65). -/
inductive PickupState where
  | disabled | configuring | listening | fault | silent
  deriving DecidableEq, Repr

/-- Wind states (R145). -/
inductive WindState where
  | unrequested | unconfirmed | settling | confirmed
  deriving DecidableEq, Repr

/-- Kinds of sweep (R48). -/
inductive SweepKind where
  | off | mute | revoice
  deriving DecidableEq, Repr

/-- Kinds of score record (R176). -/
inductive ScoreKind where
  | empty | noteOn | noteOff | registration | tempo | mark | cue | illegal
  deriving DecidableEq, Repr

/-- Kinds of hold-queue entry (R20). -/
inductive HoldKind where
  | noteOn | noteOff | registration | tempo | mark
  deriving DecidableEq, Repr

/-- Phases of a setup handshake (R74). -/
inductive Phase where
  | leadIn | awaiting | sending | gap | ending
  deriving DecidableEq, Repr

/-- Causes of a change of tracker state (R115). -/
inductive StateCause where
  | start | resume | windReady | windLimit | windDrop | capture | loss | waitReached | waitEnd
  | waitExpired | waitReleased | rangeEnd | stop | cancel | sweepDone
  deriving DecidableEq, Repr

/-- Reasons of a PICKUP report (R70). -/
inductive PickupReason where
  | commit | badEntry | parity | stuck | faultCode | recovered | setupDone | abort | timeout
  deriving DecidableEq, Repr

/-- Reasons of a FORM_ERROR (R11). -/
inductive FormReason where
  | check | kind | payload | range
  deriving DecidableEq, Repr

/-- Causes of STARVED (R32). -/
inductive StarvedCause where
  | released | withdrawn | runBegan
  deriving DecidableEq, Repr

/-- Regions of a dropped write (R56, R152). -/
inductive DropRegion where
  | chest | log | status
  deriving DecidableEq, Repr

/-- Regions of memory (R150). -/
inductive Region where
  | anchor | score | chest | log | status | other
  deriving DecidableEq, Repr

/-- Reasons an anchor is invalid (R159), with the value the loader notes. -/
inductive AnchorReason where
  | signature | check (sum : Nat) | range (word : Nat) | limits | region
  deriving DecidableEq, Repr

/-- Results of a command (R136). -/
inductive CommandResult where
  | accepted | refused | unknown
  deriving DecidableEq, Repr

/-- Reasons a command is refused (R136). -/
inductive CommandReason where
  | state | configuration | cancelHeld | stamp | tempo
  deriving DecidableEq, Repr

/-- The command of a COMMAND report: a value written to word 75, or CANCEL (R136, R178). -/
inductive CommandName where
  | written (value : Word) | cancel
  deriving DecidableEq, Repr

/-- Events of a WIND report (R145, R147, R148). -/
inductive WindEvent where
  | ready | limit (wind : WindState) | dropped (tracker : TrackerState)
  deriving DecidableEq, Repr

/-- Outcomes of an ANCHOR report (R157, R161, R174). -/
inductive AnchorOutcome where
  | deferred
  | loaded (slotCount logCount abandoned : Nat)
  | invalid (reason : AnchorReason)
  deriving DecidableEq, Repr

/-! ### Reports -/

/-- A report with the details its raising rule gives (10.8). -/
inductive Report where
  | state (old new : TrackerState) (cause : StateCause)
  | matched (slot : Nat) (error : Int) (strength : Nat) (contributors : List PickupNo)
  | miss (slot stamp w : Nat) (wait anchor overtaken counted : Bool)
  | stray (fusedFrame : Frame) (strength : Nat) (contributors : List PickupNo) (trail : Nat)
  | release (slot : Nat) (kind : HoldKind) (division : Division) (key lateness : Nat)
  | mark (slot : Nat) (number : Word)
  | tempoSet (slot new replaced : Nat)
  | formError (slot : Nat) (reason : FormReason)
  | lateDiscard (slot : Nat) (kind : ScoreKind)
  | queueFull (slot : Nat)
  | cueFull (slot : Nat)
  | admitOverrun (slot : Nat)
  | withdrawn (slot : Nat) (kind : ScoreKind)
  | starved (cause : StarvedCause) (slot : Option Nat)
  | unmatchedOff (division : Division) (key transposed : Nat)
  | holderOverflow (division : Division) (key : Nat) (coupled : Bool)
  | protectDrop (address : Nat) (value : Word) (region : DropRegion)
  | pickup (pickup : PickupNo) (old new : PickupState) (reason : PickupReason)
  | wind (event : WindEvent)
  | anchor (outcome : AnchorOutcome)
  | command (name : CommandName) (result : CommandResult) (reason : Option CommandReason)
      (tracker : TrackerState) (holdDrops cueDrops : Nat)
  | lost (count : Nat)
  | waitExpired (slot stamp : Nat)
  | rangeEnd (before tempo : Nat)
  deriving DecidableEq, Repr

/-- An internal record: a report with the frame count and the integer position of the event that raised
it (R165). -/
structure Record where
  report   : Report
  frame    : Frame
  position : Nat
  deriving DecidableEq, Repr

/-- A report raised by a block and not yet taken by the report writer (R165). -/
structure Raised where
  block  : Block
  record : Record
  deriving DecidableEq, Repr

/-! ### Tables -/

/-- Sparse data by key, in one canonical form: keys rising, no entry equal to what an unlisted key reads
as (Machine/Tables.lean). -/
abbrev Table (α : Type) := List (Nat × α)

/-- The organ memory by word address (log entry 3). -/
abbrev Memory := Table Word

/-! ### Memory path (chapter 9) -/

/-- An entry of the chest write FIFO (R44). `sweep`: queued by the sweep that runs (R48, log entry 23). -/
structure FifoEntry where
  address : Nat
  stored  : Word
  on      : Bool
  sweep   : Bool
  deriving DecidableEq, Repr

/-- A processor access: a read or a write of one word (R150). -/
inductive ProcAccess where
  | read (address : Nat)
  | write (address : Nat) (value : Word)
  deriving DecidableEq, Repr

/-- The access on the memory port (R154). `live`: the FIFO still holds the entry. `discard`: the owner
has abandoned the work, and the word is discarded (R155). `inverted`: the processor is returned the word
inverted (R57). A processor write on the port has been decoded and is stored. -/
inductive PortAccess where
  | chestWrite (entry : FifoEntry) (live : Bool)
  | fetchRead (address : Nat) (discard : Bool)
  | anchorRead (address : Nat) (discard : Bool)
  | pickupRead (address : Nat) (discard : Bool)
  | writeBack (address : Nat) (value : Word)
  | reportWrite (address : Nat) (value : Word) (discard : Bool)
  | procRead (address : Nat) (inverted : Bool)
  | procWrite (address : Nat) (value : Word)
  deriving DecidableEq, Repr

/-- A pending write-back: a division and its mask (R156). -/
structure WriteBack where
  division : Division
  mask     : Word
  deriving DecidableEq, Repr

/-- The memory path. -/
structure MemPath where
  port       : Option PortAccess
  waiting    : Option ProcAccess
  yieldCount : Nat
  ready      : Bool
  readData   : Word
  writeBacks : List WriteBack
  deriving DecidableEq, Repr

/-! ### Anchor loader (chapter 9) -/

/-- The installed region map and settings (R150, R160, R177). -/
structure Installed where
  scoreBase       : Nat
  slotCount       : Nat
  chestBase       : Nat
  logBase         : Nat
  logCount        : Nat
  statusBase      : Nat
  tmin            : Nat
  tmax            : Nat
  phaseGain       : Nat
  rateGain        : Nat
  maxTempoStep    : Nat
  lossLimit       : Nat
  lateTolerance   : Nat
  mergeSpan       : Nat
  fusionThreshold : Nat
  repeatGap       : Nat
  waitLimit       : Nat
  windSettle      : Nat
  windLimit       : Nat
  windHold        : Nat
  releaseHistory  : Bool
  deriving DecidableEq, Repr

/-- A pickup listed for a pickup-entry fetch, with the carried value (R163). -/
structure PickupFetch where
  pickup  : PickupNo
  carried : Word
  deriving DecidableEq, Repr

/-- The anchor loader. -/
structure Loader where
  config     : ConfigState
  installed  : Option Installed
  load       : Option (List Word)
  heldMasks  : Vector (Option Word) 4
  noted      : Vector (Option Word) 12
  pickupList : List PickupFetch
  pickupGot  : List Word
  announced  : TrackerState
  deriving DecidableEq, Repr

/-! ### Admission unit (chapter 1) -/

/-- An entry of the admission list: a slot and the commit word last written to it (1.3). -/
structure AdmissionEntry where
  slot   : Nat
  commit : Word
  deriving DecidableEq, Repr

/-- A read requested of the arbiter; `discard`: its word will be discarded (R8, R9). -/
structure FetchRequest where
  address : Nat
  discard : Bool
  deriving DecidableEq, Repr

/-- The admission unit. -/
structure Admission where
  slots     : Table SlotState
  list      : List AdmissionEntry
  fetch     : Option (List Word)
  request   : Option FetchRequest
  nextOrder : Nat
  deriving DecidableEq, Repr

/-! ### Release engine (chapter 2) -/

/-- A hold-queue entry (R20). -/
structure HoldEntry where
  slot     : Nat
  kind     : HoldKind
  division : Division
  key      : Nat
  stamp    : Nat
  payload  : Word
  order    : Nat
  deriving DecidableEq, Repr

/-- The release engine. -/
structure Release where
  hold    : List HoldEntry
  starved : Bool
  deriving DecidableEq, Repr

/-! ### Chest writer (chapter 3) -/

/-- A coupler: a target division and an offset in keys (R37). -/
structure Coupler where
  target : Division
  offset : Int
  deriving DecidableEq, Repr

/-- The settings of one division (R37). -/
structure DivisionSettings where
  enabled   : Bool
  reverse   : Bool
  transpose : Int
  couplerA  : Option Coupler
  couplerB  : Option Coupler
  stopMask  : Word
  deriving DecidableEq, Repr

/-- An entry of the sounding table (R38); `due`: pending-on with its repeat gap elapsed (R43). -/
structure SoundEntry where
  holders   : Nat
  pendingOn : Bool
  due       : Bool
  lastOff   : Option Frame
  deriving DecidableEq, Repr

/-- A set of divisions (R48). -/
structure Divisions where
  d0 : Bool
  d1 : Bool
  d2 : Bool
  d3 : Bool
  deriving DecidableEq, Repr

/-- A running sweep (R48): kind, set, next division and key, whether it has passed its last key. -/
structure Sweep where
  kind     : SweepKind
  set      : Divisions
  division : Division
  key      : Nat
  passed   : Bool
  deriving DecidableEq, Repr

/-- The chest writer. -/
structure Chest where
  divisions   : Vector DivisionSettings 4
  sounding    : Table SoundEntry
  fifo        : List FifoEntry
  sweep       : Option Sweep
  union       : Divisions
  protectSeen : Bool
  deriving DecidableEq, Repr

/-! ### Sense link controller (chapter 4) -/

/-- The installed settings of a pickup (R64). -/
structure PickupEntry where
  enabled : Bool
  weight  : Nat
  delay   : Nat
  count   : Nat
  value1  : Nat
  value2  : Nat
  value3  : Nat
  value4  : Nat
  deriving DecidableEq, Repr

/-- The handshake record (R74). `timeoutDue`: the value frame count is about to reach 50 (log entry 27). -/
structure Handshake where
  phase      : Phase
  index      : Nat
  active     : Nat
  inactive   : Nat
  ackedOnce  : Bool
  frames     : Nat
  timeoutDue : Bool
  deriving DecidableEq, Repr

/-- An onset candidate: its strength and the frame count of its first look (R71). -/
structure Candidate where
  strength : Nat
  frame    : Frame
  deriving DecidableEq, Repr

/-- What an LST slot carries (R63). -/
structure LstSlot where
  present : Bool
  value   : Nat
  deriving DecidableEq, Repr

/-- An entry of the pickup table (R64), with the quiet count (R63) and the LST slot it settles. -/
structure Pickup where
  entry        : PickupEntry
  state        : PickupState
  parityRun    : Nat
  stuckRun     : Nat
  goodRun      : Nat
  lastLiveness : Option Nat
  lastCode     : Option Nat
  candidate    : Option Candidate
  handshake    : Option Handshake
  quiet        : Nat
  lst          : LstSlot
  deriving DecidableEq, Repr

/-- The sense link controller. `begun`: the first frame after RESET has begun (log entry 9). -/
structure Link where
  frame   : Frame
  begun   : Bool
  pickups : Vector Pickup 12
  deriving DecidableEq, Repr

/-! ### Onset fuser (chapter 5) -/

/-- A contributor of the open window (R86). -/
structure Contributor where
  pickup       : PickupNo
  strength     : Nat
  contribution : Nat
  compensated  : Frame
  arrival      : Frame
  deriving DecidableEq, Repr

/-- An open fusion window (R86). -/
structure Window where
  opening      : Frame
  closing      : Frame
  contributors : List Contributor
  sum          : Nat
  deriving DecidableEq, Repr

/-- The onset fuser. -/
structure Fuser where
  window  : Option Window
  running : Bool
  deriving DecidableEq, Repr

/-- An accepted onset as handed to the fuser (R72). -/
structure Onset where
  pickup   : PickupNo
  strength : Nat
  frame    : Frame
  arrival  : Frame
  deriving DecidableEq, Repr

/-- A fused onset as handed to the cue matcher (R93): its contributors are pickup numbers in the order of the
contributor list, each with its contribution. -/
structure FusedOnset where
  frame        : Frame
  strength     : Nat
  contributors : List (PickupNo × Nat)
  deriving DecidableEq, Repr

/-! ### Cue matcher (chapter 6) -/

/-- A cue entry (R97). -/
structure CueEntry where
  slot   : Nat
  stamp  : Nat
  w      : Nat
  wait   : Bool
  anchor : Bool
  order  : Nat
  deriving DecidableEq, Repr

/-- The cue matcher. `expiryDue`: the wait timer is about to reach WaitLimit (log entry 10).
`clearAnswer`: the answer of R130 is on its way to the tracker (log entry 12). -/
structure Matcher where
  cues         : List CueEntry
  capture      : Nat
  miss         : Nat
  timer        : Nat
  timerStopped : Bool
  expiryDue    : Bool
  lag          : Option Nat
  announced    : TrackerState
  clearAnswer  : Bool
  deriving DecidableEq, Repr

/-- A message of the cue matcher to the tracker (R101). -/
inductive Message where
  | firstCapture
  | capture (error : Int) (anchor : Bool)
  | correction (error : Int) (anchor : Bool)
  | waitEnd (fused : Frame)
  | loss
  | waitExpired
  deriving DecidableEq, Repr

/-! ### Tempo tracker (chapter 7) -/

/-- The tempo tracker (R113). Position and lag credit are in units of the fraction, 1/65 536 su. -/
structure Tracker where
  state         : TrackerState
  returnState   : Option TrackerState
  position      : Nat
  remainder     : Nat
  tempo         : Nat
  lag           : Nat
  trail         : List Nat
  waitStamp     : Option Nat
  resume        : Bool
  awaitingClear : Bool
  deriving DecidableEq, Repr

/-! ### Run controller (chapter 8) -/

/-- How far the run controller is in its frame event: a named event is the next thing it takes (log
entry 28). -/
inductive RunStage where
  | done | cancelAssert | cancelRelease | drop | confirm | limit | hold
  deriving DecidableEq, Repr

/-- The run controller. `startCounts`: the numbers of entries and cues that the release engine and the cue
matcher dropped for an accepted START, on their way to the run controller (R138; log entry 30). -/
structure RunControl where
  stampLow      : Word
  stampHigh     : Word
  nominal       : Word
  markLow       : Bool
  markHigh      : Bool
  markNominal   : Bool
  cancelPrev    : Option Bool
  cancelHeld    : Bool
  windReq       : Bool
  wind          : WindState
  windPrev      : Option Bool
  windLast      : Option Bool
  settle        : Nat
  limit         : Nat
  limitRunning  : Bool
  hold          : Nat
  holdRunning   : Bool
  readyReported : Bool
  stage         : RunStage
  startCounts   : Option (Nat × Nat)
  announced     : TrackerState
  deriving DecidableEq, Repr

/-! ### Report writer (chapter 10) -/

/-- What a task of the report writer is: a record, its producer word, or a status refresh (R173). -/
inductive TaskKind where
  | record | producerWord | refresh
  deriving DecidableEq, Repr

/-- The task in progress, with the words still to be written, the next one first (R167, R171). -/
structure Task where
  kind  : TaskKind
  words : List (Nat × Word)
  deriving DecidableEq, Repr

/-- The report writer. -/
structure ReportWriter where
  queue      : List Record
  producer   : Nat
  consumer   : Nat
  lostCount  : Nat
  lostTotal  : Nat
  generation : Word
  attn       : Bool
  task       : Option Task
  refreshDue : Bool
  deriving DecidableEq, Repr

/-! ### The whole machine -/

/-- The state of the part, the organ memory it stands before, and the queue of commands. `spaceWait`: the
release engine waits for FIFO space for the hold-queue entry of this admission order, from the moment the space
is wanting until its release is made (R26, R46). -/
structure State where
  pending   : List Instr
  mem       : Memory
  path      : MemPath
  loader    : Loader
  admission : Admission
  release   : Release
  spaceWait : Option Nat
  chest     : Chest
  link      : Link
  fuser     : Fuser
  matcher   : Matcher
  tracker   : Tracker
  run       : RunControl
  report    : ReportWriter
  raised    : List Raised
  deriving DecidableEq, Repr

/-- Why the machine stops: nothing does. "The memory path has no error state, and no access is refused or
faulted" (R150), and no other rule stops the part; so there is no constructor (safe). -/
inductive Fault where
  deriving DecidableEq, Repr

/-- Why a command has no answer. -/
inductive Refusal where
  /-- A command without a meaning yet, by its mnemonic; raised by exec's refused arms only (safe). -/
  | notModelled (mnemonic : String)
  deriving DecidableEq, Repr

/-- The answer of a command. -/
abbrev Answer := Host.Outcome State Fault Refusal

/-! ### Reset -/

/-- The empty set of divisions. -/
def Divisions.none : Divisions := ⟨false, false, false, false⟩

/-- A division before any division map is installed: disabled (R58; log entry 5). -/
def DivisionSettings.reset : DivisionSettings :=
  { enabled := false, reverse := false, transpose := 0, couplerA := none, couplerB := none,
    stopMask := 0 }

/-- A pickup after RESET (R85): disabled with zero settings, no health values, nothing on LST. -/
def Pickup.reset : Pickup :=
  { entry := { enabled := false, weight := 0, delay := 0, count := 0, value1 := 0, value2 := 0,
               value3 := 0, value4 := 0 },
    state := .disabled, parityRun := 0, stuckRun := 0, goodRun := 0, lastLiveness := none,
    lastCode := none, candidate := none, handshake := none, quiet := 0,
    lst := { present := false, value := 0 } }

/-- The memory path at RESET (R164). No access on the port or waiting is the model's choice (log entry 4), and so is
the word on PD (log entry 5). -/
def MemPath.reset : MemPath :=
  { port := none, waiting := none, yieldCount := 0, ready := true, readData := 0, writeBacks := [] }

/-- The anchor loader at RESET (R164). That the tracker state last announced to it is IDLE is DEDUCED from the tracker's
own reset state (R134; log entry 5): no rule gives the copy a reset value. -/
def Loader.reset : Loader :=
  { config := .unconfigured, installed := none, load := none, heldMasks := Vector.replicate 4 none,
    noted := Vector.replicate 12 none, pickupList := [], pickupGot := [], announced := .idle }

/-- The admission unit at RESET (R19). That with no slots every slot number reads FREE is DEDUCED (log entry 5). That
the first admission order is 0, of a count without a width, is the model's choice (log entry 5): "starts afresh" names
no number. -/
def Admission.reset : Admission :=
  { slots := [], list := [], fetch := none, request := none, nextOrder := 0 }

/-- The release engine at RESET (R35). -/
def Release.reset : Release := { hold := [], starved := false }

/-- The chest writer at RESET (R58). -/
def Chest.reset : Chest :=
  { divisions := Vector.replicate 4 DivisionSettings.reset, sounding := [], fifo := [], sweep := none,
    union := Divisions.none, protectSeen := false }

/-- The sense link controller at RESET (R85). -/
def Link.reset : Link := { frame := 0, begun := false, pickups := Vector.replicate 12 Pickup.reset }

/-- The onset fuser at RESET (R96). -/
def Fuser.reset : Fuser := { window := none, running := false }

/-- The cue matcher at RESET (R112). That the tracker state last announced (R101) is IDLE is DEDUCED from the tracker's
own reset state (R134; log entry 5): R112's table does not give it. That the wait timer is not stopped is the model's
choice (log entry 5), and so is that no expiry is due (log entry 10) and no answer on its way (log entry 12). -/
def Matcher.reset : Matcher :=
  { cues := [], capture := 0, miss := 0, timer := 0, timerStopped := false, expiryDue := false,
    lag := none, announced := .idle, clearAnswer := false }

/-- The tempo tracker at RESET (R134). -/
def Tracker.reset : Tracker :=
  { state := .idle, returnState := none, position := 0, remainder := 0, tempo := Config.resetTempo,
    lag := 0, trail := List.replicate Config.trailLength 0, waitStamp := none, resume := false,
    awaitingClear := false }

/-- The run controller at RESET (R149). That the stopped hold timer stands at 0, and the marks and the ready flag are
clear, is the model's choice (log entry 5), and so is that there is no WINDOK sample (log entry 25), no frame event
left (log entry 28) and no numbers of a START awaited (log entry 30). That the tracker state last announced is IDLE is
DEDUCED from the tracker's own reset state (R134; log entry 5). -/
def RunControl.reset : RunControl :=
  { stampLow := 0, stampHigh := 0, nominal := 0, markLow := false, markHigh := false,
    markNominal := false, cancelPrev := none, cancelHeld := false, windReq := false,
    wind := .unrequested, windPrev := none, windLast := none, settle := 0, limit := 0,
    limitRunning := false, hold := 0, holdRunning := false, readyReported := false, stage := .done,
    startCounts := none, announced := .idle }

/-- The report writer at RESET (R175). -/
def ReportWriter.reset : ReportWriter :=
  { queue := [], producer := 0, consumer := 0, lostCount := 0, lostTotal := 0, generation := 0,
    attn := false, task := none, refreshDue := false }

/-- The machine at RESET, before its release begins the first load (R164, log entry 4): every block at the
reset values its chapter gives, memory with nothing listed, no command waiting. -/
def State.reset : State :=
  { pending := [], mem := [], path := .reset, loader := .reset, admission := .reset,
    release := .reset, spaceWait := none, chest := .reset, link := .reset, fuser := .reset, matcher := .reset,
    tracker := .reset, run := .reset, report := .reset, raised := [] }

end Sys2Proof.Machine
end

