-- ==== Sys2Proof/Machine/Tables.lean ====
section
/-! DEFINITION. Sparse tables in canonical form: the organ memory, the slot map and the sounding table are
read and written through these operations alone. `d` is what an unlisted key reads as. -/

namespace Sys2Proof.Machine

/-- The canonical form: keys strictly rising and no entry equal to `d`. -/
def Table.wf {α : Type} [DecidableEq α] (d : α) : Table α → Bool
  | [] => true
  | [(_, v)] => decide (v ≠ d)
  | (k, v) :: (k', v') :: t => decide (v ≠ d) && decide (k < k') && Table.wf d ((k', v') :: t)

/-- The value at a key. -/
def Table.get {α : Type} (d : α) : Table α → Nat → α
  | [], _ => d
  | (k, v) :: t, a => if k = a then v else Table.get d t a

/-- Write the value at a key, keeping the canonical form: writing `d` removes the entry. -/
def Table.set {α : Type} [DecidableEq α] (d : α) : Table α → Nat → α → Table α
  | [], a, v => if v = d then [] else [(a, v)]
  | (k, w) :: t, a, v =>
    if a < k then (if v = d then (k, w) :: t else (a, v) :: (k, w) :: t)
    else if a = k then (if v = d then t else (a, v) :: t)
    else (k, w) :: Table.set d t a v

/-- Apply a function to every listed value, dropping the entries that become `d`. -/
def Table.mapValues {α : Type} [DecidableEq α] (d : α) (f : α → α) : Table α → Table α
  | [] => []
  | (k, v) :: t =>
    if f v = d then Table.mapValues d f t else (k, f v) :: Table.mapValues d f t

/-- The organ memory is in canonical form. -/
abbrev Memory.wf (m : Memory) : Bool := Table.wf Config.unwrittenWord m

/-- The word at an address of the organ memory (R150). -/
def Memory.read (m : Memory) (a : Nat) : Word := Table.get Config.unwrittenWord m a

/-- Store a word in the organ memory (R150). -/
def Memory.write (m : Memory) (a : Nat) (v : Word) : Memory := Table.set Config.unwrittenWord m a v

end Sys2Proof.Machine
end

