-- ==== Sys2Proof/Machine/Operands.lean ====
section
/-! DEFINITION. The formats the part reads (chapter 11): fields of words, score records (R176), the anchor
block (R177) with its validation (R159), and the sense slot (R181). -/

namespace Sys2Proof.Machine

/-- The `len` bits of a word from bit `lo` up; bit 0 is the least significant bit (chapter 11). -/
def field (w : Word) (lo len : Nat) : Nat := w.toNat / 2 ^ lo % 2 ^ len

/-- One bit of a word. -/
def bit (w : Word) (i : Nat) : Bool := field w i 1 == 1

/-- A field of `len` bits read in two's complement (chapter 11). -/
def signed (len n : Nat) : Int := if n < 2 ^ (len - 1) then n else (n : Int) - 2 ^ len

/-- A 32-bit value held in two words, low half first (chapter 11). -/
def pair (low high : Word) : Nat := high.toNat * 65536 + low.toNat

/-- Keys of a division's compass: 0 to 60 for a manual, 0 to 31 for the pedal (R36). -/
def compass (d : Division) : Nat := if d = 3 then 32 else 61

/-! ### Score records (R176) -/

/-- The kind codes (R176). -/
def ScoreKind.ofCode : Nat → ScoreKind
  | 0 => .empty
  | 1 => .noteOn
  | 2 => .noteOff
  | 3 => .registration
  | 4 => .tempo
  | 5 => .mark
  | 6 => .cue
  | _ => .illegal

/-- The kind of a commit word: bits 15 to 13. -/
def commitKind (c : Word) : ScoreKind := ScoreKind.ofCode (field c 13 3)

/-- The division of a commit word: bits 12 to 11. -/
def commitDivision (c : Word) : Division := Fin.ofNat 4 (field c 11 2)

/-- The key of a commit word: bits 10 to 5. -/
def commitKey (c : Word) : Nat := field c 5 6

/-- The check field of a commit word: bits 4 to 0. -/
def commitCheck (c : Word) : Nat := field c 0 5

/-- A fetched record: w0 to w2 as read and the commit word carried by its list entry (R6). -/
structure FetchedRecord where
  w0     : Word
  w1     : Word
  w2     : Word
  commit : Word
  deriving DecidableEq, Repr

/-- The stamp of a record: w1 and w0 as one 32-bit value. -/
def FetchedRecord.stamp (r : FetchedRecord) : Nat := pair r.w0 r.w1

/-- The check value: the sum of the four words, the commit word's check field taken as 0, modulo 31
(R10). -/
def FetchedRecord.checkValue (r : FetchedRecord) : Nat :=
  (r.w0.toNat + r.w1.toNat + r.w2.toNat + (r.commit.toNat - commitCheck r.commit)) % 31

/-- The window half-width of a CUE payload: bits 7 to 0. -/
def cueWidth (payload : Word) : Nat := field payload 0 8

/-- The PAYLOAD test fails (R11). -/
def FetchedRecord.payloadFails (r : FetchedRecord) (tmin tmax : Nat) : Bool :=
  match commitKind r.commit with
  | .noteOn | .noteOff => r.w2.toNat != 0
  | .tempo => r.w2.toNat < tmin || tmax < r.w2.toNat
  | .cue => cueWidth r.w2 == 0 || field r.w2 10 6 != 0
  | .empty | .registration | .mark | .illegal => false

/-- The RANGE test fails (R11). -/
def FetchedRecord.rangeFails (r : FetchedRecord) : Bool :=
  bit r.w1 15 ||
  match commitKind r.commit with
  | .noteOn | .noteOff => compass (commitDivision r.commit) ≤ commitKey r.commit
  | .registration => commitKey r.commit != 0
  | .tempo | .mark | .cue => commitDivision r.commit != 0 || commitKey r.commit != 0
  | .empty | .illegal => false

/-- The first test of R11 that the record fails, in the order CHECK, KIND, PAYLOAD, RANGE, or none. -/
def FetchedRecord.formError (r : FetchedRecord) (tmin tmax : Nat) : Option FormReason :=
  if commitCheck r.commit ≠ r.checkValue then some .check
  else if commitKind r.commit = .illegal then some .kind
  else if r.payloadFails tmin tmax then some .payload
  else if r.rangeFails then some .range
  else none

/-- The score kind of a hold-queue entry (R176). -/
def HoldKind.toScore : HoldKind → ScoreKind
  | .noteOn => .noteOn
  | .noteOff => .noteOff
  | .registration => .registration
  | .tempo => .tempo
  | .mark => .mark

/-- The hold-queue kind of a score kind, or none for a kind the hold queue does not take (R13). -/
def ScoreKind.toHold : ScoreKind → Option HoldKind
  | .noteOn => some .noteOn
  | .noteOff => some .noteOff
  | .registration => some .registration
  | .tempo => some .tempo
  | .mark => some .mark
  | .empty | .cue | .illegal => none

/-! ### The anchor block (R177) -/

/-- Word n of the 78 words a load has read (R158). -/
def anchorWord (ws : List Word) (n : Nat) : Word := ws.getD n 0

/-- The region map and settings of an anchor block (R160, R177). -/
def parseInstalled (ws : List Word) : Installed :=
  let w := anchorWord ws
  { scoreBase := pair (w 1) (w 2), slotCount := (w 3).toNat,
    chestBase := pair (w 4) (w 5),
    logBase := pair (w 6) (w 7), logCount := (w 8).toNat,
    statusBase := pair (w 9) (w 10),
    tmin := (w 11).toNat, tmax := (w 12).toNat,
    phaseGain := field (w 13) 0 5, rateGain := field (w 13) 8 8,
    maxTempoStep := field (w 14) 0 8,
    lossLimit := field (w 15) 0 4, lateTolerance := field (w 15) 8 8,
    mergeSpan := field (w 16) 0 5, fusionThreshold := field (w 17) 0 10,
    repeatGap := field (w 18) 0 6, waitLimit := (w 19).toNat,
    windSettle := field (w 20) 0 12, windLimit := (w 21).toNat,
    windHold := field (w 22) 0 8, releaseHistory := bit (w 23) 0 }

/-- A coupler of a division: present bit, offset and target fields (R177). -/
def parseCoupler (present : Bool) (offset target : Nat) : Option Coupler :=
  if present then some { target := Fin.ofNat 4 target, offset := signed 6 offset } else none

/-- The settings of a division from its three anchor words (R37, R177). -/
def parseDivision (w0 w1 w2 : Word) : DivisionSettings :=
  { enabled := bit w0 0, reverse := bit w0 1, transpose := signed 5 (field w0 8 5),
    couplerA := parseCoupler (bit w0 2) (field w1 0 6) (field w1 6 2),
    couplerB := parseCoupler (bit w0 3) (field w1 8 6) (field w1 14 2),
    stopMask := w2 }

/-- The entry of a pickup from its three anchor words (R64, R177). -/
def parsePickup (w0 w1 w2 : Word) : PickupEntry :=
  { enabled := bit w0 0, weight := field w0 1 3, delay := field w0 4 8, count := field w0 12 3,
    value1 := field w1 0 7, value2 := field w1 8 7,
    value3 := field w2 0 7, value4 := field w2 8 7 }

/-- A value lies from lo to hi, both included. -/
def within (lo hi n : Nat) : Bool := lo ≤ n && n ≤ hi

/-- The coupler bits of word 25 + 3d are legal: all 0 when the coupler is none, else an offset of −24 to
+24 (R159, R177). -/
def couplerLegal (present : Bool) (bits : Nat) : Bool :=
  if present then
    let o := signed 6 (bits % 64)
    decide (-24 ≤ o) && decide (o ≤ 24)
  else bits == 0

/-- Every field of anchor word n lies within its range and every bit outside the named fields is 0
(R159 test 3, R177). A chest base that is no multiple of 256 is seen in word 4 (log entry 24). -/
def anchorWordLegal (ws : List Word) (n : Nat) : Bool :=
  let w := anchorWord ws n
  if n < 24 then
    match n with
    | 3 => within 64 2048 w.toNat
    | 4 => field w 0 8 == 0
    | 8 => within 16 1024 w.toNat
    | 11 | 12 => within 320 4000 w.toNat
    | 13 => within 0 16 (field w 0 5) && field w 5 3 == 0
    | 14 => within 1 255 w.toNat
    | 15 => within 1 15 (field w 0 4) && field w 4 4 == 0
    | 16 => within 1 31 w.toNat
    | 17 => within 1 1023 w.toNat
    | 18 => within 0 63 w.toNat
    | 20 => within 0 4095 w.toNat
    | 21 => within 1 65535 w.toNat
    | 22 => within 0 255 w.toNat
    | 23 => within 0 1 w.toNat
    | _ => true
  else if n < 36 then
    match n % 3 with
    | 0 =>
      let t := signed 5 (field w 8 5)
      field w 4 4 == 0 && field w 13 3 == 0 && decide (-12 ≤ t) && decide (t ≤ 12)
    | 1 =>
      let e := anchorWord ws (n - 1)
      couplerLegal (bit e 2) (field w 0 8) && couplerLegal (bit e 3) (field w 8 8)
    | _ => true
  else if n < 72 then
    match n % 3 with
    | 0 => field w 15 1 == 0 && within 0 4 (field w 12 3)
    | _ => field w 7 1 == 0 && field w 15 1 == 0
  else true

/-- The first anchor word, in word order, that holds an illegal field (R159). -/
def firstIllegalWord (ws : List Word) : Option Nat :=
  (List.range Config.anchorWords).find? (fun n => !anchorWordLegal ws n)

/-- The sum of the words, modulo 65 536 (R159 test 2). -/
def anchorSum (ws : List Word) : Nat := (ws.map BitVec.toNat).sum % 65536

/-- The bases and lengths of the four installed regions (R150). -/
def Installed.regions (i : Installed) : List (Nat × Nat) :=
  [(i.scoreBase, 4 * i.slotCount), (i.chestBase, 256), (i.logBase, 8 * i.logCount),
   (i.statusBase, 16)]

/-- A region lies within words 78 to 262 143 (R159 test 5). -/
def regionInside (r : Nat × Nat) : Bool :=
  Config.anchorWords ≤ r.1 && r.1 + r.2 ≤ Config.memoryWords

/-- Two regions share no word (R159 test 5). -/
def regionsApart (r q : Nat × Nat) : Bool := r.1 + r.2 ≤ q.1 || q.1 + q.2 ≤ r.1

/-- Every region of a list is apart from every later one. -/
def allApart : List (Nat × Nat) → Bool
  | [] => true
  | r :: t => t.all (regionsApart r) && allApart t

/-- The regions are legal (R159 test 5). -/
def Installed.regionsLegal (i : Installed) : Bool :=
  i.regions.all regionInside && allApart i.regions

/-- The first test of R159 that the 78 words fail, with its noted value, or none for a valid anchor. -/
def anchorError (ws : List Word) : Option AnchorReason :=
  if (anchorWord ws 0).toNat ≠ Config.signature then some .signature
  else if anchorSum ws ≠ 0 then some (.check (anchorSum ws))
  else match firstIllegalWord ws with
    | some n => some (.range n)
    | none =>
      if (parseInstalled ws).tmax < (parseInstalled ws).tmin then some .limits
      else if !(parseInstalled ws).regionsLegal then some .region
      else none

/-! ### Regions and chest words (R36, R150) -/

/-- The address lies in the region of this base and length. -/
def inRegion (base len a : Nat) : Bool := base ≤ a && a < base + len

/-- The region of an address under the anchor region and the installed region map, if any (R150, R153). -/
def regionOf (i : Option Installed) (a : Nat) : Region :=
  if a < Config.anchorWords then .anchor
  else match i with
    | none => .other
    | some m =>
      if inRegion m.scoreBase (4 * m.slotCount) a then .score
      else if inRegion m.chestBase 256 a then .chest
      else if inRegion m.logBase (8 * m.logCount) a then .log
      else if inRegion m.statusBase 16 a then .status
      else .other

/-- The division in whose 64 words a chest address lies (R36). -/
def chestDivision (m : Installed) (a : Nat) : Division := Fin.ofNat 4 ((a - m.chestBase) / 64)

/-- The word address of division d, key k (R36). -/
def chestAddress (m : Installed) (d : Division) (k : Nat) : Nat := m.chestBase + 64 * d.val + k

/-- A chest value through a division's wiring sense: inverted in every bit for reverse polarity, in both
directions (R36, R57). -/
def throughPolarity (reverse : Bool) (v : Word) : Word := if reverse then ~~~v else v

/-! ### The sense slot (R61, R181) -/

/-- Bits of a sampled slot from bit `lo` up; the first bit time is bit 7 (R181). -/
def slotField (b : BitVec 8) (lo len : Nat) : Nat := b.toNat / 2 ^ lo % 2 ^ len

/-- The onset code: bit times 8k to 8k + 3. -/
def slotCode (b : BitVec 8) : Nat := slotField b 4 4

/-- The ack: bit time 8k + 4. -/
def slotAck (b : BitVec 8) : Bool := slotField b 3 1 == 1

/-- The liveness: bit times 8k + 5 and 8k + 6. -/
def slotLiveness (b : BitVec 8) : Nat := slotField b 1 2

/-- The number of ones among the eight bits. -/
def slotOnes (b : BitVec 8) : Nat := ((List.range 8).map (fun i => slotField b i 1)).sum

/-- The slot is good: an odd number of ones (R61). -/
def slotGood (b : BitVec 8) : Bool := slotOnes b % 2 == 1

/-! ### The setup slot and the frame start (R59, R181) -/

/-- An LST slot in bits, the first bit time in bit 7: present, then the value, most significant bit first
(R181). -/
def LstSlot.bits (l : LstSlot) : BitVec 8 :=
  BitVec.ofNat 8 ((if l.present then 128 else 0) + l.value % 128)

/-- The level of LST in bit time b of a frame (R60, R181). -/
def Link.lstLevel (l : Link) (b : Fin 96) : Bool :=
  ((l.pickups[b.val / 8]'(by omega)).lst.bits).getMsbD (b.val % 8)

/-- The level of LFS in bit time b of a frame: high in the first (R59, R181). -/
def lfsLevel (b : Fin 96) : Bool := b.val == 0

end Sys2Proof.Machine
end

