-- ==== Sys2Proof/Machine/Collections.lean ====
section
/-! DEFINITION. The ordered collections and the lists the blocks own: the hold queue (R21 to R23, R33), the
cue list (R97 to R100, R111), the admission list (R3 to R5), the pending write-back list (R54 to R56, R156)
and the list of pickup-entry fetches (R163). Each operation is on the collection alone. -/

namespace Sys2Proof.Machine

/-! ### The hold queue -/

/-- The kind ranks of R21. -/
def HoldKind.rank : HoldKind → Nat
  | .noteOff => 1
  | .registration => 2
  | .tempo => 3
  | .noteOn => 4
  | .mark => 5

/-- Entry e stands before entry f: by stamp, then kind rank, then admission order (R21). -/
def HoldEntry.before (e f : HoldEntry) : Bool :=
  e.stamp < f.stamp ||
  (e.stamp == f.stamp && (e.kind.rank < f.kind.rank ||
    (e.kind.rank == f.kind.rank && e.order < f.order)))

/-- Place an entry by the order of R21, behind every entry it does not stand before. -/
def holdInsert (e : HoldEntry) : List HoldEntry → List HoldEntry
  | [] => [e]
  | f :: q => if e.before f then e :: f :: q else f :: holdInsert e q

/-- Remove a slot's entry, wherever it stands (R23). -/
def holdRemove (slot : Nat) (q : List HoldEntry) : List HoldEntry := q.filter (fun e => e.slot != slot)

/-- The hold queue is in the order of R21. -/
def holdSorted : List HoldEntry → Bool
  | [] => true
  | e :: q => q.all (fun f => e.before f) && holdSorted q

/-! ### The cue list -/

/-- Cue e stands before cue f: by stamp, then admission order (R97). -/
def CueEntry.before (e f : CueEntry) : Bool :=
  e.stamp < f.stamp || (e.stamp == f.stamp && e.order < f.order)

/-- Place a cue by the order of R97. -/
def cueInsert (e : CueEntry) : List CueEntry → List CueEntry
  | [] => [e]
  | f :: q => if e.before f then e :: f :: q else f :: cueInsert e q

/-- Remove a slot's cue, wherever it stands (R99). -/
def cueRemove (slot : Nat) (q : List CueEntry) : List CueEntry := q.filter (fun e => e.slot != slot)

/-- The cue list is in the order of R97. -/
def cueSorted : List CueEntry → Bool
  | [] => true
  | e :: q => q.all (fun f => e.before f) && cueSorted q

/-- The wait stamp: the least stamp among the WAIT cues, or none (R100). -/
def leastWait : List CueEntry → Option Nat
  | [] => none
  | e :: q =>
    if e.wait then
      match leastWait q with
      | none => some e.stamp
      | some t => some (min e.stamp t)
    else leastWait q

/-- The cues that stand ahead of the first one meeting `p`, and that cue, or none (R106, R107). -/
def cueSplit (p : CueEntry → Bool) : List CueEntry → Option (List CueEntry × CueEntry)
  | [] => none
  | e :: q =>
    if p e then some ([], e)
    else match cueSplit p q with
      | none => none
      | some (ahead, c) => some (e :: ahead, c)

/-! ### The admission list -/

/-- Replace the commit word a slot's entry carries (R4). -/
def admissionReplace (slot : Nat) (c : Word) (l : List AdmissionEntry) : List AdmissionEntry :=
  l.map (fun e => if e.slot = slot then { e with commit := c } else e)

/-- Remove a slot's entry; the entries behind it move up (R5). -/
def admissionRemove (slot : Nat) (l : List AdmissionEntry) : List AdmissionEntry :=
  l.filter (fun e => e.slot != slot)

/-! ### The pending write-back list -/

/-- A write-back request: replace the mask of the division's entry in its place, or add one at the tail
(R54, R156). -/
def writeBackRequest (d : Division) (mask : Word) (l : List WriteBack) : List WriteBack :=
  if l.any (fun e => e.division == d) then
    l.map (fun e => if e.division = d then { e with mask := mask } else e)
  else l ++ [{ division := d, mask := mask }]

/-- Cancel the write-back pending for a division (R55). -/
def writeBackCancel (d : Division) (l : List WriteBack) : List WriteBack :=
  l.filter (fun e => e.division != d)

/-! ### The pickup-entry fetches -/

/-- List a pickup with its carried value, or replace the value of one already listed (R163). -/
def pickupListAdd (k : PickupNo) (v : Word) (l : List PickupFetch) : List PickupFetch :=
  if l.any (fun e => e.pickup == k) then
    l.map (fun e => if e.pickup = k then { e with carried := v } else e)
  else l ++ [{ pickup := k, carried := v }]

/-- The pickup at the head of the list, whose entry is being fetched (R163). -/
def pickupHead (l : List PickupFetch) : Option PickupNo := l.head?.map (fun e => e.pickup)

end Sys2Proof.Machine
end

