-- ==== Sys2Proof/Machine/ChestWriter.lean ====
section
/-! DEFINITION. The chest writer (chapter 3) on its own state: the sounding table, note actions, the repeat
gap, the chest write FIFO, the sweeps and mask changes. `m` is the installed region map and settings. -/

namespace Sys2Proof.Machine

/-! ### Sets of divisions -/

/-- Membership. -/
def Divisions.mem (s : Divisions) (d : Division) : Bool :=
  match d with
  | 0 => s.d0
  | 1 => s.d1
  | 2 => s.d2
  | 3 => s.d3

/-- Union. -/
def Divisions.join (s t : Divisions) : Divisions :=
  ⟨s.d0 || t.d0, s.d1 || t.d1, s.d2 || t.d2, s.d3 || t.d3⟩

/-- The set of one division. -/
def Divisions.single (d : Division) : Divisions := ⟨d == 0, d == 1, d == 2, d == 3⟩

/-- All four divisions. -/
def Divisions.all : Divisions := ⟨true, true, true, true⟩

/-! ### The sounding table (R38) -/

/-- The table's key of division d, key k. -/
def soundKey (d : Division) (k : Nat) : Nat := 64 * d.val + k

/-- The entry of a key nothing has touched since RESET (R38). -/
def SoundEntry.quiet : SoundEntry := { holders := 0, pendingOn := false, due := false, lastOff := none }

/-- The sounding table's entry of division d, key k. -/
def Chest.sound (c : Chest) (d : Division) (k : Nat) : SoundEntry :=
  Table.get SoundEntry.quiet c.sounding (soundKey d k)

/-- Set the sounding table's entry of division d, key k. -/
def Chest.setSound (c : Chest) (d : Division) (k : Nat) (e : SoundEntry) : Chest :=
  { c with sounding := Table.set SoundEntry.quiet c.sounding (soundKey d k) e }

/-- The settings of a division. -/
def Chest.division (c : Chest) (d : Division) : DivisionSettings := c.divisions[d]

/-! ### The chest write FIFO (R44) -/

/-- The FIFO entry that writes a logical value to a chest word: the stored value follows from the polarity
at the moment the write is queued (R36). -/
def Chest.entryFor (c : Chest) (m : Installed) (d : Division) (k : Nat) (logical : Word)
    (on sweep : Bool) : FifoEntry :=
  { address := chestAddress m d k, stored := throughPolarity (c.division d).reverse logical,
    on := on, sweep := sweep }

/-- Queue an on-write of the division's stop mask (R40, R43, R51). -/
def Chest.queueOn (c : Chest) (m : Installed) (d : Division) (k : Nat) (sweep : Bool) : Chest :=
  { c with fifo := c.fifo ++ [c.entryFor m d k (c.division d).stopMask true sweep] }

/-- Queue an off-write of logical 0 (R41, R49, R51). -/
def Chest.queueOff (c : Chest) (m : Installed) (d : Division) (k : Nat) (sweep : Bool) : Chest :=
  { c with fifo := c.fifo ++ [c.entryFor m d k 0 false sweep] }

/-- A sweep of this kind runs. -/
def Chest.sweeping (c : Chest) (kind : SweepKind) : Bool :=
  match c.sweep with
  | none => false
  | some s => s.kind == kind

/-! ### Note actions (R39 to R42) -/

/-- A hold of a note action (R39). -/
structure NoteHold where
  division : Division
  key      : Nat
  coupled  : Bool
  deriving DecidableEq, Repr

/-- The hold at a division and a key counted over the integers, or none outside the compass (R39). -/
def holdAt (d : Division) (key : Int) (coupled : Bool) : List NoteHold :=
  if 0 ≤ key ∧ key < compass d then [{ division := d, key := key.toNat, coupled := coupled }] else []

/-- The hold of a coupler: none for no coupler or a disabled target (R39). -/
def Chest.coupledHold (c : Chest) (coupler : Option Coupler) (transposed : Int) : List NoteHold :=
  match coupler with
  | none => []
  | some x => if (c.division x.target).enabled then holdAt x.target (transposed + x.offset) true else []

/-- The holds of a note action in the order direct, coupler A, coupler B; none for a disabled division
(R39). -/
def Chest.noteHolds (c : Chest) (d : Division) (key : Nat) : List NoteHold :=
  let s := c.division d
  if s.enabled then
    let transposed : Int := key + s.transpose
    holdAt d transposed false ++ c.coupledHold s.couplerA transposed
      ++ c.coupledHold s.couplerB transposed
  else []

/-- The on-write of a key whose last off-write was queued at `lastOff` is held back (R42). -/
def heldBack (gap : Nat) (now : Frame) (lastOff : Option Frame) : Bool :=
  match lastOff with
  | none => false
  | some f => (now - f).toNat < gap

/-- One hold of an on action (R40, R42, R52). -/
def Chest.holdOn (m : Installed) (now : Frame) (h : NoteHold) (c : Chest) : Chest × List Report :=
  let e := c.sound h.division h.key
  if Config.holderLimit ≤ e.holders then (c, [.holderOverflow h.division h.key h.coupled])
  else
    let c1 := c.setSound h.division h.key { e with holders := e.holders + 1 }
    if e.holders ≠ 0 then (c1, [])
    else if c.sweeping .mute then
      ({ c1 with union := c1.union.join (Divisions.single h.division) }, [])
    else if heldBack m.repeatGap now e.lastOff then
      (c.setSound h.division h.key { e with holders := 1, pendingOn := true, due := false }, [])
    else (c1.queueOn m h.division h.key false, [])

/-- One hold of an off action (R41, R52). `key` is the action's key. -/
def Chest.holdOff (m : Installed) (now : Frame) (key : Nat) (h : NoteHold) (c : Chest) :
    Chest × List Report :=
  let e := c.sound h.division h.key
  if e.holders = 0 then
    (c, if h.coupled then [] else [.unmatchedOff h.division key h.key])
  else if 2 ≤ e.holders then
    (c.setSound h.division h.key { e with holders := e.holders - 1 }, [])
  else if e.pendingOn then
    (c.setSound h.division h.key { e with holders := 0, pendingOn := false, due := false }, [])
  else
    let c1 := c.setSound h.division h.key { e with holders := 0 }
    if c.sweeping .mute then
      ({ c1 with union := c1.union.join (Divisions.single h.division) }, [])
    else
      ((c.setSound h.division h.key { e with holders := 0, lastOff := some now }).queueOff m
        h.division h.key false, [])

/-- Take holds one after another, gathering their reports in order. -/
def Chest.takeHolds (f : NoteHold → Chest → Chest × List Report) : List NoteHold → Chest →
    Chest × List Report
  | [], c => (c, [])
  | h :: t, c =>
    let first := f h c
    let rest := Chest.takeHolds f t first.1
    (rest.1, first.2 ++ rest.2)

/-- A note action, taken whole (R39 to R41). -/
def Chest.noteAction (m : Installed) (now : Frame) (d : Division) (key : Nat) (on : Bool) (c : Chest) :
    Chest × List Report :=
  if on then Chest.takeHolds (Chest.holdOn m now) (c.noteHolds d key) c
  else Chest.takeHolds (Chest.holdOff m now key) (c.noteHolds d key) c

/-! ### The repeat gap (R43) -/

/-- A pending-on entry whose elapsed frames have reached the gap becomes due (R43). -/
def SoundEntry.becomeDue (gap : Nat) (now : Frame) (e : SoundEntry) : SoundEntry :=
  if e.pendingOn && !heldBack gap now e.lastOff then { e with due := true } else e

/-- Every pending-on entry whose gap has elapsed becomes due (R43). -/
def Chest.markDue (gap : Nat) (now : Frame) (c : Chest) : Chest :=
  { c with sounding := Table.mapValues SoundEntry.quiet (SoundEntry.becomeDue gap now) c.sounding }

/-- The first due entry in order of division and then of key (R43). -/
def Chest.firstDue (c : Chest) : Option (Division × Nat) :=
  (c.sounding.find? (fun e => e.2.due)).map (fun e => (Fin.ofNat 4 (e.1 / 64), e.1 % 64))

/-- Queue a due entry's on-write with the mask as it now stands; the entry leaves the set (R43). -/
def Chest.writePending (m : Installed) (d : Division) (k : Nat) (c : Chest) : Chest :=
  (c.setSound d k { c.sound d k with pendingOn := false, due := false }).queueOn m d k false

/-! ### Sweeps (R48 to R52) -/

/-- A sweep of this kind and set writes the keys of division d: a REVOICE passes over divisions outside
its set and disabled ones; OFF and MUTE cover all four (R49 to R51). -/
def Chest.sweepCovers (c : Chest) (kind : SweepKind) (set : Divisions) (d : Division) : Bool :=
  match kind with
  | .off | .mute => true
  | .revoice => set.mem d && (c.division d).enabled

/-- The divisions in order. -/
def divisionOrder : List Division := [0, 1, 2, 3]

/-- A sweep at its start: at the first key of the lowest division it covers (R48). -/
def Chest.sweepAtStart (c : Chest) (kind : SweepKind) (set : Divisions) : Sweep :=
  match divisionOrder.find? (c.sweepCovers kind set) with
  | some d => { kind := kind, set := set, division := d, key := 0, passed := false }
  | none => { kind := kind, set := set, division := 0, key := 0, passed := true }

/-- The walk's next place after the key just written (R48). -/
def Chest.sweepAdvance (c : Chest) (s : Sweep) : Sweep :=
  if s.key + 1 < compass s.division then { s with key := s.key + 1 }
  else
    match divisionOrder.find? (fun d => decide (s.division < d) && c.sweepCovers s.kind s.set d) with
    | some d => { s with division := d, key := 0 }
    | none => { s with passed := true }

/-- FIFO entries no longer belong to the sweep that runs (log entry 23). -/
def untagged (q : List FifoEntry) : List FifoEntry := q.map (fun e => { e with sweep := false })

/-- Remove every on-write from the FIFO; the off-writes stay in their order (R47). -/
def offWrites (q : List FifoEntry) : List FifoEntry := untagged (q.filter (fun e => !e.on))

/-- A sounding entry forgets its holds and its pending-on flag; the last-off frame is kept (R49). -/
def SoundEntry.forget (e : SoundEntry) : SoundEntry :=
  { e with holders := 0, pendingOn := false, due := false }

/-- A sounding entry forgets its pending-on flag and keeps its holds (R50). -/
def SoundEntry.unpend (e : SoundEntry) : SoundEntry := { e with pendingOn := false, due := false }

/-- Start an OFF sweep (R49), anew or in place of another (R52). -/
def Chest.startOff (c : Chest) : Chest :=
  { c with sounding := Table.mapValues SoundEntry.quiet SoundEntry.forget c.sounding,
           fifo := offWrites c.fifo, union := Divisions.none,
           sweep := some (c.sweepAtStart .off Divisions.all) }

/-- Start a MUTE sweep (R50), anew or in place of a REVOICE (R52). -/
def Chest.startMute (c : Chest) : Chest :=
  { c with sounding := Table.mapValues SoundEntry.quiet SoundEntry.unpend c.sounding,
           fifo := offWrites c.fifo, union := Divisions.none,
           sweep := some (c.sweepAtStart .mute Divisions.all) }

/-- Start a REVOICE sweep of a set (R51). -/
def Chest.startRevoice (c : Chest) (set : Divisions) : Chest :=
  { c with fifo := untagged c.fifo, sweep := some (c.sweepAtStart .revoice set) }

/-- The request starts or restarts an OFF or MUTE sweep, which removes the on-writes (R47, R52). -/
def Chest.silences (c : Chest) (kind : SweepKind) : Bool :=
  match kind with
  | .off => true
  | .mute => !c.sweeping .off && !c.sweeping .mute
  | .revoice => false

/-- A sweep request, taken by the running sweep's kind (table of R52). A MUTE under an OFF, which R52 says cannot arise,
leaves the OFF as it is: the model's choice (log entry 32). -/
def Chest.requestSweep (kind : SweepKind) (set : Divisions) (c : Chest) : Chest :=
  match kind, c.sweep with
  | .off, _ => c.startOff
  | .mute, none => c.startMute
  | .mute, some s =>
    match s.kind with
    | .off => c
    | .mute => { c with union := Divisions.none }
    | .revoice => c.startMute
  | .revoice, none => c.startRevoice set
  | .revoice, some s =>
    match s.kind with
    | .off => c
    | .mute => { c with union := c.union.join set }
    | .revoice => c.startRevoice (s.set.join set)

/-- The key a REVOICE writes is on: it is held and not pending-on (R51). -/
def Chest.revoicesOn (c : Chest) (d : Division) (k : Nat) : Bool :=
  (c.sound d k).holders != 0 && !(c.sound d k).pendingOn

/-- Queue the write of the sweep's next key and advance (R48 to R51). -/
def Chest.sweepWrite (m : Installed) (s : Sweep) (c : Chest) : Chest :=
  let c1 :=
    if s.kind = .revoice ∧ c.revoicesOn s.division s.key then c.queueOn m s.division s.key true
    else c.queueOff m s.division s.key true
  { c1 with sweep := some (c.sweepAdvance s) }

/-- The running sweep, if it has passed its last key and its last write is in memory (R48). -/
def Chest.endedSweep (c : Chest) : Option Sweep :=
  match c.sweep with
  | none => none
  | some s => if s.passed && !c.fifo.any (fun e => e.sweep) then some s else none

/-- The sweep has ended; a MUTE with a nonempty union becomes a REVOICE of it at once (R52). -/
def Chest.endSweep (s : Sweep) (c : Chest) : Chest :=
  let c1 := { c with sweep := none }
  if s.kind = .mute ∧ c.union ≠ Divisions.none then
    { c1 with union := Divisions.none }.startRevoice c.union
  else c1

/-- The start of an anchor load: the FIFO is emptied and any sweep abandoned; the division map and the
sounding table are kept (R47, R58). -/
def Chest.loadStart (c : Chest) : Chest := { c with fifo := [], sweep := none, union := Divisions.none }

/-! ### Mask changes (R53) -/

/-- Set a division's stop mask. -/
def Chest.setMask (d : Division) (mask : Word) (c : Chest) : Chest :=
  { c with divisions := c.divisions.set d { c.division d with stopMask := mask } }

end Sys2Proof.Machine
end

