-- ==== Sys2Proof/Machine/Flags.lean ====
section
/-! DEFINITION. What the part writes for software: the codes (R179), the log record (R178), and the status
words with their flags (R172, R180). -/

namespace Sys2Proof.Machine

/-! ### Codes (R179) -/

/-- Tracker state codes. -/
def TrackerState.code : TrackerState → Nat
  | .idle => 0
  | .winding => 1
  | .leading => 2
  | .following => 3
  | .coasting => 4
  | .waiting => 5
  | .halted => 6
  | .stopping => 7

/-- Configuration state codes. -/
def ConfigState.code : ConfigState → Nat
  | .unconfigured => 0
  | .loading => 1
  | .configured => 2
  | .deferred => 3

/-- Pickup state codes. -/
def PickupState.code : PickupState → Nat
  | .disabled => 0
  | .configuring => 1
  | .listening => 2
  | .fault => 3
  | .silent => 4

/-- Wind state codes. -/
def WindState.code : WindState → Nat
  | .unrequested => 0
  | .unconfirmed => 1
  | .settling => 2
  | .confirmed => 3

/-- STATE cause codes. -/
def StateCause.code : StateCause → Nat
  | .start => 1
  | .resume => 2
  | .windReady => 3
  | .windLimit => 4
  | .windDrop => 5
  | .capture => 6
  | .loss => 7
  | .waitReached => 8
  | .waitEnd => 9
  | .waitExpired => 10
  | .waitReleased => 11
  | .rangeEnd => 12
  | .stop => 13
  | .cancel => 14
  | .sweepDone => 15

/-- PICKUP reason codes. -/
def PickupReason.code : PickupReason → Nat
  | .commit => 1
  | .badEntry => 2
  | .parity => 3
  | .stuck => 4
  | .faultCode => 5
  | .recovered => 6
  | .setupDone => 7
  | .abort => 8
  | .timeout => 9

/-- COMMAND result codes. -/
def CommandResult.code : CommandResult → Nat
  | .accepted => 1
  | .refused => 2
  | .unknown => 3

/-- COMMAND reason codes; 0 for none. -/
def commandReasonCode : Option CommandReason → Nat
  | none => 0
  | some .state => 1
  | some .configuration => 2
  | some .cancelHeld => 3
  | some .stamp => 4
  | some .tempo => 5

/-- Score kind codes (R176). -/
def ScoreKind.code : ScoreKind → Nat
  | .empty => 0
  | .noteOn => 1
  | .noteOff => 2
  | .registration => 3
  | .tempo => 4
  | .mark => 5
  | .cue => 6
  | .illegal => 7

/-- FORM_ERROR reason codes (R178). -/
def FormReason.code : FormReason → Nat
  | .check => 1
  | .kind => 2
  | .payload => 3
  | .range => 4

/-- STARVED cause codes (R178). -/
def StarvedCause.code : StarvedCause → Nat
  | .released => 1
  | .withdrawn => 2
  | .runBegan => 3

/-- PROTECT_DROP region codes (R178). -/
def DropRegion.code : DropRegion → Nat
  | .chest => 1
  | .log => 2
  | .status => 3

/-- ANCHOR INVALID reason codes, in the order of R159 (R178). -/
def AnchorReason.code : AnchorReason → Nat
  | .signature => 1
  | .check _ => 2
  | .range _ => 3
  | .limits => 4
  | .region => 5

/-- The noted value of an invalid anchor: the sum for CHECK, the word number for RANGE, else 0 (R178). -/
def AnchorReason.noted : AnchorReason → Nat
  | .check sum => sum
  | .range word => word
  | .signature | .limits | .region => 0

/-! ### The log record (R178) -/

/-- One bit as a number. -/
def bitNat (b : Bool) : Nat := if b then 1 else 0

/-- A count in a 16-bit field: the field's greatest value when it exceeds it (R178). -/
def capped (n : Nat) : Word := BitVec.ofNat 16 (min n 65535)

/-- The low half of a 32-bit value. -/
def lowHalf (n : Nat) : Word := BitVec.ofNat 16 n

/-- The high half of a 32-bit value. -/
def highHalf (n : Nat) : Word := BitVec.ofNat 16 (n / 65536)

/-- A contributor set: bit k is set when pickup k is a contributor (R178). -/
def contributorSet (ks : List PickupNo) : Word := ks.foldl (fun w k => w ||| BitVec.twoPow 16 k.val) 0

/-- The parts of a log record that its kind decides: code, subject, details A, B and C. -/
structure RecordBody where
  code    : Nat
  subject : Nat
  a       : Word
  b       : Word
  c       : Word
  deriving DecidableEq, Repr

/-- The body of a log record (table of R178), given the record's own frame count and integer position, to
which the age and the trail offset of a STRAY are relative. -/
def Record.body (r : Record) : RecordBody :=
  match r.report with
  | .state old new cause => ⟨1, 0, lowHalf (old.code + 16 * new.code), lowHalf cause.code, 0⟩
  | .matched slot e strength ks => ⟨2, slot, BitVec.ofInt 16 e, capped strength, contributorSet ks⟩
  | .miss slot stamp w wait anchor overtaken counted =>
    ⟨3, slot, lowHalf stamp, highHalf stamp,
      lowHalf (w + 256 * bitNat wait + 512 * bitNat anchor + 1024 * bitNat overtaken
        + 2048 * bitNat counted)⟩
  | .stray fused strength ks trail =>
    ⟨4, min (r.frame - fused).toNat 2047, capped (r.position - trail), capped strength,
      contributorSet ks⟩
  | .release slot kind division key lateness =>
    ⟨5, slot, lowHalf (kind.toScore.code + 8 * division.val + 32 * key), capped lateness, 0⟩
  | .mark slot number => ⟨6, slot, number, 0, 0⟩
  | .tempoSet slot new replaced => ⟨7, slot, capped new, capped replaced, 0⟩
  | .formError slot reason => ⟨8, slot, lowHalf reason.code, 0, 0⟩
  | .lateDiscard slot kind => ⟨9, slot, lowHalf kind.code, 0, 0⟩
  | .queueFull slot => ⟨10, slot, 0, 0, 0⟩
  | .cueFull slot => ⟨11, slot, 0, 0, 0⟩
  | .admitOverrun slot => ⟨12, slot, 0, 0, 0⟩
  | .withdrawn slot kind => ⟨13, slot, lowHalf kind.code, 0, 0⟩
  | .starved cause slot => ⟨14, slot.getD 0, lowHalf cause.code, 0, 0⟩
  | .unmatchedOff division key transposed =>
    ⟨15, 0, lowHalf division.val, lowHalf key, lowHalf transposed⟩
  | .holderOverflow division key coupled =>
    ⟨16, 0, lowHalf division.val, lowHalf key, lowHalf (bitNat coupled)⟩
  | .protectDrop address value region =>
    ⟨17, 0, lowHalf address, lowHalf (address / 65536 % 4 + 16 * region.code), value⟩
  | .pickup k old new reason =>
    ⟨18, k.val, lowHalf (old.code + 16 * new.code), lowHalf reason.code, 0⟩
  | .wind event =>
    match event with
    | .ready => ⟨19, 0, 1, 0, 0⟩
    | .limit wind => ⟨19, 0, 2, lowHalf wind.code, 0⟩
    | .dropped tracker => ⟨19, 0, 3, lowHalf tracker.code, 0⟩
  | .anchor outcome =>
    match outcome with
    | .deferred => ⟨20, 1, 0, 0, 0⟩
    | .loaded slots logs abandoned => ⟨20, 2, capped slots, capped logs, capped abandoned⟩
    | .invalid reason => ⟨20, 3, lowHalf reason.code, capped reason.noted, 0⟩
  | .command name result reason tracker holdDrops cueDrops =>
    let low := result.code + 4 * commandReasonCode reason + 32 * tracker.code
    match name with
    | .written value => ⟨21, 0, value, lowHalf low, lowHalf (min holdDrops 511 + 512 * min cueDrops 127)⟩
    | .cancel => ⟨21, 0, 0, lowHalf (low + 256), 0⟩
  | .lost count => ⟨22, 0, capped count, 0, 0⟩
  | .waitExpired slot stamp => ⟨23, slot, lowHalf stamp, highHalf stamp, 0⟩
  | .rangeEnd before tempo => ⟨24, 0, lowHalf before, highHalf before, capped tempo⟩

/-- The eight words of a log record, in word order (R167, R178). -/
def Record.words (r : Record) : List Word :=
  let b := r.body
  [lowHalf (b.code + 32 * min b.subject 2047), b.a, b.b,
   lowHalf r.frame.toNat, highHalf r.frame.toNat, lowHalf r.position, highHalf r.position, b.c]

/-! ### The status words (R172, R180) -/

/-- The words packed by R180 from the values the blocks hold. -/
def statusWord1 (tracker : TrackerState) (config : ConfigState)
    (starved windConfirmed protectSeen deferred : Bool) : Word :=
  lowHalf (tracker.code + 16 * config.code + 256 * bitNat starved + 512 * bitNat windConfirmed
    + 1024 * bitNat protectSeen + 2048 * bitNat deferred)

/-- Status word 7: admission list and chest write FIFO occupancy. -/
def statusWord7 (listed fifo : Nat) : Word := lowHalf (listed + 256 * fifo)

/-- Status words 8 to 10: the states of four pickups. -/
def statusPickups (s0 s1 s2 s3 : PickupState) : Word :=
  lowHalf (s0.code + 16 * s1.code + 256 * s2.code + 4096 * s3.code)

/-- The sixteen status words of a refresh (R172), with the new generation first and last. `fifo` is the
occupancy of the chest write FIFO. -/
def State.statusWords (s : State) (fifo : Nat) (generation : Word) : List Word :=
  let k (i : PickupNo) : PickupState := s.link.pickups[i].state
  let position := s.tracker.position / Config.unitsPerSu
  [generation,
   statusWord1 s.tracker.state s.loader.config s.release.starved
     (s.run.wind == .confirmed) s.chest.protectSeen (s.loader.config == .deferred),
   lowHalf position, highHalf position, capped s.tracker.tempo,
   capped s.release.hold.length, capped s.matcher.cues.length,
   statusWord7 s.admission.list.length fifo,
   statusPickups (k 0) (k 1) (k 2) (k 3), statusPickups (k 4) (k 5) (k 6) (k 7),
   statusPickups (k 8) (k 9) (k 10) (k 11),
   capped s.report.producer,
   lowHalf s.link.frame.toNat, highHalf s.link.frame.toNat,
   capped s.report.lostTotal, generation]

end Sys2Proof.Machine
end

