-- ==== Sys2Proof/Machine/OnsetFuser.lean ====
section
/-! DEFINITION. The onset fuser (chapter 5) on its own state. -/

namespace Sys2Proof.Machine

/-- The contributor an onset becomes, with the weight and delay installed for its pickup at that moment
(R87). -/
def contributorOf (e : PickupEntry) (o : Onset) : Contributor :=
  { pickup := o.pickup, strength := o.strength, contribution := o.strength * e.weight,
    compensated := o.frame - BitVec.ofNat 32 e.delay, arrival := o.arrival }

/-- Contributor c stands before contributor d: by arrival frame, counted from the opening arrival, then by
pickup number (R86). -/
def Contributor.before (opening : Frame) (c d : Contributor) : Bool :=
  let a := (c.arrival - opening).toNat
  let b := (d.arrival - opening).toNat
  a < b || (a == b && decide (c.pickup.val < d.pickup.val))

/-- Place a contributor by the order of R86. -/
def contributorInsert (opening : Frame) (c : Contributor) : List Contributor → List Contributor
  | [] => [c]
  | d :: l => if c.before opening d then c :: d :: l else d :: contributorInsert opening c l

/-- The window an onset opens (R88). -/
def Window.openedBy (mergeSpan : Nat) (c : Contributor) : Window :=
  { opening := c.arrival, closing := c.arrival + BitVec.ofNat 32 mergeSpan, contributors := [c],
    sum := c.contribution }

/-- An arrival frame lies within the window's span (R88). -/
def Window.spans (w : Window) (arrival : Frame) : Bool :=
  decide ((arrival - w.opening).toNat ≤ (w.closing - w.opening).toNat)

/-- An onset within the span joins the window, unless its pickup already contributes (R89). -/
def Window.join (c : Contributor) (w : Window) : Window :=
  if w.contributors.any (fun d => d.pickup == c.pickup) then w
  else { w with contributors := contributorInsert w.opening c w.contributors,
                sum := w.sum + c.contribution }

/-- The larger of two contributions leads, the first in list order among equals (R92). -/
def leadOf (c d : Contributor) : Contributor := if c.contribution < d.contribution then d else c

/-- The leading contributor: the first in list order among those with the largest contribution (R92). -/
def leading : List Contributor → Option Contributor
  | [] => none
  | c :: l => some (l.foldl leadOf c)

/-- The fused onset a closed window yields, if its strength reaches the threshold (R91 to R93). -/
def Window.fused (threshold : Nat) (w : Window) : Option FusedOnset :=
  if threshold ≤ w.sum then
    (leading w.contributors).map (fun c =>
      { frame := c.compensated, strength := w.sum,
        contributors := w.contributors.map (fun d => (d.pickup, d.contribution)) })
  else none

/-- The contributors of a fused onset as a list of pickups, as its MATCH and STRAY reports give them (R93). -/
def FusedOnset.pickups (o : FusedOnset) : List PickupNo := o.contributors.map (fun c => c.1)

/-- Close the open window, whatever the frame: the fused onset it yields, if any (R90, R91). -/
def Fuser.close (threshold : Nat) (f : Fuser) : Fuser × Option FusedOnset :=
  match f.window with
  | none => (f, none)
  | some w => ({ f with window := none }, w.fused threshold)

/-- The frame just begun lies past the open window's closing frame (R90). -/
def Fuser.overdue (now : Frame) (f : Fuser) : Bool :=
  match f.window with
  | none => false
  | some w => !w.spans now

/-- Take an onset (R87 to R90): the fuser afterwards, and the fused onset of a window that the onset finds
past its closing frame. -/
def Fuser.takeOnset (mergeSpan threshold : Nat) (c : Contributor) (f : Fuser) :
    Fuser × Option FusedOnset :=
  if f.running then
    match f.window with
    | none => ({ f with window := some (Window.openedBy mergeSpan c) }, none)
    | some w =>
      if w.spans c.arrival then ({ f with window := some (w.join c) }, none)
      else ({ f with window := some (Window.openedBy mergeSpan c) }, w.fused threshold)
  else (f, none)

/-- LEADING, FOLLOWING, COASTING and WAITING (R114). -/
def TrackerState.running : TrackerState → Bool
  | .leading | .following | .coasting | .waiting => true
  | .idle | .winding | .halted | .stopping => false

/-- LEADING, FOLLOWING and COASTING (R114). -/
def TrackerState.advancing : TrackerState → Bool
  | .leading | .following | .coasting => true
  | .idle | .winding | .waiting | .halted | .stopping => false

/-- An announced tracker state at the fuser: the running flag follows it, and an exit from the running
states abandons the window (R86, R94). -/
def Fuser.announce (new : TrackerState) (f : Fuser) : Fuser :=
  if new.running then { f with running := true } else { window := none, running := false }

/-- The start of an anchor load abandons any open window (R94). -/
def Fuser.loadStart (f : Fuser) : Fuser := { f with window := none }

end Sys2Proof.Machine
end

