-- ==== Sys2Proof/Machine/CueMatcher.lean ====
section
/-! DEFINITION. The cue matcher (chapter 6) on its own state. What a matcher event does outside the block
(reports, slots set FREE, a message to the tracker) is gathered in MatcherResult. -/

namespace Sys2Proof.Machine

/-- What one event of the cue matcher does: its new state, the reports in their order, the slots that the
admission unit sets FREE, and the message to the tracker, if any. The announcement of a changed wait stamp
follows from the cue list before and after (R100). -/
structure MatcherResult where
  matcher : Matcher
  reports : List Report
  freed   : List Nat
  message : Option Message
  deriving DecidableEq, Repr

/-- A result that changes the matcher alone. -/
def MatcherResult.plain (m : Matcher) : MatcherResult :=
  { matcher := m, reports := [], freed := [], message := none }

/-- The wait stamp (R100). -/
def Matcher.waitStamp (m : Matcher) : Option Nat := leastWait m.cues

/-- The MISS report of a cue (R104, R107). -/
def missReport (e : CueEntry) (overtaken counted : Bool) : Report :=
  .miss e.slot e.stamp e.w e.wait e.anchor overtaken counted

/-! ### Expiry (R102 to R104) -/

/-- The expiry lag for a largest delay and a MergeSpan (R102). -/
def expiryLag (largestDelay mergeSpan : Nat) : Nat := largestDelay + mergeSpan + 2

/-- The cue is missed at this trail position (R103). -/
def CueEntry.missedAt (trail : Nat) (e : CueEntry) : Bool := e.stamp + e.w < trail

/-- The counts after one miss under this tracker state, whether it counts, and whether Loss is sent
(R104). -/
def Matcher.countMiss (lossLimit : Nat) (m : Matcher) : Matcher × Bool × Bool :=
  match m.announced with
  | .leading | .coasting => ({ m with capture := 0, miss := 0 }, true, false)
  | .following =>
    if lossLimit ≤ m.miss + 1 then ({ m with capture := 0, miss := 0 }, true, true)
    else ({ m with miss := m.miss + 1 }, true, false)
  | .idle | .winding | .waiting | .halted | .stopping => (m, false, false)

/-- One miss by expiry, taken whole: the first cue in list order that the trail position has passed, if
any (R103, R104). -/
def Matcher.expireOne (lossLimit trail : Nat) (m : Matcher) : Option MatcherResult :=
  match m.cues.find? (CueEntry.missedAt trail) with
  | none => none
  | some e =>
    let c := m.countMiss lossLimit
    some { matcher := { c.1 with cues := cueRemove e.slot m.cues },
           reports := [missReport e false c.2.1], freed := [e.slot],
           message := if c.2.2 then some .loss else none }

/-! ### Matching (R105 to R109) -/

/-- The cue matches the trail position: its stamp lies from P − W to P + W (R106). -/
def CueEntry.matchesAt (trail : Nat) (e : CueEntry) : Bool :=
  trail ≤ e.stamp + e.w && e.stamp ≤ trail + e.w

/-- The cues behind a matched cue stay; the cue and those ahead of it leave (R107, R108). -/
def cuesAfter (ahead : List CueEntry) (q : List CueEntry) : List CueEntry := q.drop (ahead.length + 1)

/-- The reports of a match: the overtaken misses in list order, then MATCH (R107, R108). -/
def matchReports (ahead : List CueEntry) (e : CueEntry) (error : Int) (o : FusedOnset) : List Report :=
  ahead.map (fun c => missReport c true false) ++ [.matched e.slot error o.strength o.pickups]

/-- The slots a match sets FREE (R107, R108). -/
def matchFreed (ahead : List CueEntry) (e : CueEntry) : List Nat :=
  ahead.map (fun c => c.slot) ++ [e.slot]

/-- The counts after a match by window and the message it sends, under FOLLOWING or not (R108). -/
def Matcher.countMatch (following : Bool) (error : Int) (anchor : Bool) (m : Matcher) :
    Matcher × Message :=
  if following then ({ m with miss := 0 }, .correction error anchor)
  else if m.capture = 0 then ({ m with capture := 1 }, .firstCapture)
  else ({ m with capture := 2, miss := 0 }, .capture error anchor)

/-- A fused onset matched by window against the list (R106 to R108), at this trail position. -/
def Matcher.matchWindow (following : Bool) (trail : Nat) (o : FusedOnset) (m : Matcher) : MatcherResult :=
  match cueSplit (CueEntry.matchesAt trail) m.cues with
  | none =>
    { matcher := m, reports := [.stray o.frame o.strength o.pickups trail], freed := [],
      message := none }
  | some (ahead, e) =>
    let error : Int := (e.stamp : Int) - trail
    let c := m.countMatch following error e.anchor
    { matcher := { c.1 with cues := cuesAfter ahead m.cues }, reports := matchReports ahead e error o,
      freed := matchFreed ahead e, message := some c.2 }

/-- A fused onset in WAITING: it ends the wait at the first WAIT cue, or is matched by window when the list
holds none (R109). -/
def Matcher.matchWait (trail : Nat) (o : FusedOnset) (m : Matcher) : MatcherResult :=
  match cueSplit (fun e => e.wait) m.cues with
  | none => m.matchWindow (m.capture == 2) trail o
  | some (ahead, e) =>
    { matcher := { m with cues := cuesAfter ahead m.cues, capture := 2, miss := 0 },
      reports := matchReports ahead e 0 o, freed := matchFreed ahead e,
      message := some (.waitEnd o.frame) }

/-- A fused onset, taken by the announced tracker state (R105). -/
def Matcher.takeFused (trail : Nat) (o : FusedOnset) (m : Matcher) : MatcherResult :=
  match m.announced with
  | .idle | .winding | .halted | .stopping => MatcherResult.plain m
  | .following => m.matchWindow true trail o
  | .leading | .coasting => m.matchWindow false trail o
  | .waiting => m.matchWait trail o

/-! ### The wait timer (R110) -/

/-- The frame start at the wait timer: it rises by 1, or its expiry is due when it would reach WaitLimit
(R110; log entry 10). -/
def Matcher.tick (waitLimit : Nat) (m : Matcher) : Matcher :=
  if m.announced = .waiting ∧ ¬ m.timerStopped then
    if waitLimit ≠ 0 ∧ waitLimit ≤ m.timer + 1 then { m with expiryDue := true }
    else { m with timer := min 65535 (m.timer + 1) }
  else m

/-- The wait has expired: the first WAIT cue is removed with a WAIT_EXPIRED report, the counts become 0
and Wait expired is sent (R110). The timer stands at WaitLimit. -/
def Matcher.expireWait (waitLimit : Nat) (m : Matcher) : MatcherResult :=
  match m.cues.find? (fun e => e.wait) with
  | none => MatcherResult.plain { m with expiryDue := false }
  | some e =>
    { matcher := { m with cues := cueRemove e.slot m.cues, capture := 0, miss := 0,
                          timer := waitLimit, expiryDue := false },
      reports := [.waitExpired e.slot e.stamp], freed := [e.slot], message := some .waitExpired }

/-- The wait stamp changed while the announced state is WAITING: the timer stops (R110). -/
def Matcher.stopTimer (m : Matcher) : Matcher :=
  if m.announced = .waiting then { m with timerStopped := true, expiryDue := false } else m

/-! ### Announcements, drops and emptyings -/

/-- The tracker's announced change of state (R101, R110, R115). -/
def Matcher.announce (old new : TrackerState) (m : Matcher) : Matcher :=
  let a := { m with announced := new, expiryDue := false }
  let b := if new = .waiting then { a with timer := 0, timerStopped := false } else a
  if old = .winding ∧ new = .leading then { b with capture := 0, miss := 0 } else b

/-- The drop at START of every cue below the start stamp; the counts and the timer become 0 (R111). -/
def Matcher.startDrop (stamp : Nat) (m : Matcher) : Matcher :=
  { m with cues := m.cues.filter (fun e => stamp ≤ e.stamp), capture := 0, miss := 0, timer := 0 }

/-- The slots of the cues that START drops (R111). -/
def Matcher.startDropped (stamp : Nat) (m : Matcher) : List Nat :=
  (m.cues.filter (fun e => e.stamp < stamp)).map (fun e => e.slot)

/-- The emptying at a teardown and at the start of a load (R112). -/
def Matcher.clear (m : Matcher) : Matcher := { m with cues := [], capture := 0, miss := 0, timer := 0 }

/-- The WAIT cue is stale: its stamp is below the position (R130). -/
def CueEntry.stale (position : Nat) (e : CueEntry) : Bool :=
  e.wait && e.stamp * Config.unitsPerSu < position

/-- The removal of every stale WAIT cue, in list order, at the tracker's request; the answer is then on its
way (R130). -/
def Matcher.clearStale (position : Nat) (m : Matcher) : MatcherResult :=
  let gone := m.cues.filter (CueEntry.stale position)
  { matcher := { m with cues := m.cues.filter (fun e => !e.stale position), clearAnswer := true },
    reports := gone.map (fun e => .waitExpired e.slot e.stamp), freed := gone.map (fun e => e.slot),
    message := none }

/-- An offer of the admission unit: the cue is accepted in its place, or refused by a full list (R97,
R98). -/
def Matcher.offer (e : CueEntry) (m : Matcher) : Option Matcher :=
  if Config.cueCapacity ≤ m.cues.length then none else some { m with cues := cueInsert e m.cues }

/-- A withdrawal of a slot's cue (R99). -/
def Matcher.withdraw (slot : Nat) (m : Matcher) : Matcher := { m with cues := cueRemove slot m.cues }

end Sys2Proof.Machine
end

