-- ==== Sys2Proof/Machine/TempoTracker.lean ====
section
/-! DEFINITION. The tempo tracker (chapter 7) on its own state. What an event asks of the neighbours (reports,
changes of tracker state in their order) is gathered in TrackerResult; Ops.lean announces the changes. -/

namespace Sys2Proof.Machine

/-- What one event of the tracker does: the tracker before any change of state it makes, the reports it
raises first, and the changes of state, each with its cause, in their order. -/
structure TrackerResult where
  tracker : Tracker
  reports : List Report
  changes : List (TrackerState × StateCause)
  deriving DecidableEq, Repr

/-- A result without a report or a change of state. -/
def TrackerResult.plain (t : Tracker) : TrackerResult := { tracker := t, reports := [], changes := [] }

/-- The integer part of the position (R113). -/
def Tracker.integer (t : Tracker) : Nat := t.position / Config.unitsPerSu

/-- The position, taken with its fraction, has reached a stamp (R24, R116). -/
def Tracker.reached (t : Tracker) (stamp : Nat) : Bool := stamp * Config.unitsPerSu ≤ t.position

/-- The position stands on the wait stamp (R125). -/
def Tracker.onWaitStamp (t : Tracker) : Bool :=
  match t.waitStamp with
  | none => false
  | some w => w * Config.unitsPerSu == t.position

/-- The held wait stamp lies below the position (R130). -/
def Tracker.waitStampStale (t : Tracker) : Bool :=
  match t.waitStamp with
  | none => false
  | some w => w * Config.unitsPerSu < t.position

/-- The change into WAITING when the position stands on the wait stamp (R125). -/
def Tracker.waitCheck (t : Tracker) : List (TrackerState × StateCause) :=
  if t.onWaitStamp then [(.waiting, .waitReached)] else []

/-- Write the trail entry of frame `now` (R120). -/
def Tracker.record (now : Frame) (t : Tracker) : Tracker :=
  { t with trail := t.trail.set (now.toNat % Config.trailLength) t.integer }

/-- The trail position of a frame (R120). -/
def Tracker.trailAt (t : Tracker) (f : Frame) : Nat := t.trail.getD (f.toNat % Config.trailLength) 0

/-- The tracker's own part of a change of state: into WAITING the return state and the lag credit (R125),
into STOPPING and HALTED what R133 and R134 clear, into an advancing state the end of a wait and of the
resume. -/
def Tracker.enter (new : TrackerState) (t : Tracker) : Tracker :=
  match new with
  | .waiting => { t with state := .waiting, returnState := some t.state, lag := 0 }
  | .leading => { t with state := .leading, returnState := none, resume := false, awaitingClear := false }
  | .following => { t with state := .following, returnState := none }
  | .coasting => { t with state := .coasting, returnState := none }
  | .halted => { t with state := .halted, resume := false, awaitingClear := false }
  | .stopping =>
    { t with state := .stopping, returnState := none, resume := false, awaitingClear := false }
  | .winding => { t with state := .winding }
  | .idle => { t with state := .idle }

/-! ### Movement of the position (R116, R118, R121, R125, R126, R132) -/

/-- Where an increase of the position ends: it is free, clamped at the wait stamp, or past the range. -/
inductive Landing where
  | free (position : Nat)
  | wait (position : Nat)
  | saturated
  deriving DecidableEq, Repr

/-- The landing of an increase that would reach `p`; a wait clamp is taken before saturation (R132). The
clamp never lowers the position (R116; log entry 26). -/
def Tracker.landing (t : Tracker) (p : Nat) : Landing :=
  match t.waitStamp with
  | some w =>
    if w * Config.unitsPerSu ≤ p then .wait (max t.position (w * Config.unitsPerSu))
    else if Config.greatestPosition < p then .saturated
    else .free p
  | none => if Config.greatestPosition < p then .saturated else .free p

/-- Move the position to its landing and write the trail entry of frame `now`. -/
def Tracker.land (now : Frame) (t : Tracker) (l : Landing) : Tracker :=
  match l with
  | .free p => { t with position := p }.record now
  | .wait p => { t with position := p }.record now
  | .saturated => { t with position := Config.greatestPosition }.record now

/-- The RANGE_END report of a saturated increase of `t` (R132). -/
def Tracker.rangeReports (t : Tracker) : Landing → List Report
  | .saturated => [.rangeEnd t.integer t.tempo]
  | .free _ | .wait _ => []

/-- The change of state a landing makes (R125, R132). -/
def Landing.changes : Landing → List (TrackerState × StateCause)
  | .free _ => []
  | .wait _ => [(.waiting, .waitReached)]
  | .saturated => [(.halted, .rangeEnd)]

/-- The units a frame advances at this tempo and remainder (R117). -/
def Tracker.advanceUnits (t : Tracker) : Nat := (t.tempo * 2048 + t.remainder) / 125

/-- The advance remainder after a frame advance (R117). -/
def Tracker.nextRemainder (t : Tracker) : Nat := (t.tempo * 2048 + t.remainder) % 125

/-- The start of frame `now` (R118). -/
def Tracker.frameStart (now : Frame) (t : Tracker) : TrackerResult :=
  if t.state.advancing then
    let q := t.advanceUnits
    let l := t.landing (t.position + (q - t.lag))
    { tracker := { t with remainder := t.nextRemainder, lag := t.lag - q }.land now l,
      reports := t.rangeReports l, changes := l.changes }
  else TrackerResult.plain (t.record now)

/-! ### Corrections (R121, R122) -/

/-- The phase correction in su (R121). -/
def phaseCorrection (phaseGain : Nat) (error : Int) (anchor : Bool) : Int :=
  if anchor then error else (error * phaseGain).tdiv 16

/-- A value brought into a range. -/
def clampInt (lo hi x : Int) : Int := max lo (min hi x)

/-- The rate correction (R122). -/
def rateCorrection (rateGain maxStep : Nat) (error : Int) : Int :=
  clampInt (-maxStep) maxStep ((error * rateGain).tdiv 64)

/-- The tempo after a rate correction, clamped to Tmin..Tmax (R122). -/
def correctedTempo (i : Installed) (tempo : Nat) (error : Int) : Nat :=
  (clampInt i.tmin i.tmax (tempo + rateCorrection i.rateGain i.maxTempoStep error)).toNat

/-- The rate correction of a Capture or Correction (R122). -/
def Tracker.rateCorrect (i : Installed) (error : Int) (t : Tracker) : Tracker :=
  { t with tempo := correctedTempo i t.tempo error }

/-- The phase correction of a Capture or Correction (R121): no change, a jump, or lag credit. -/
def Tracker.phaseCorrect (i : Installed) (now : Frame) (error : Int) (anchor : Bool) (t : Tracker) :
    TrackerResult :=
  let c := phaseCorrection i.phaseGain error anchor
  if 0 < c then
    let l := t.landing (t.position + c.toNat * Config.unitsPerSu)
    { tracker := t.land now l, reports := t.rangeReports l, changes := l.changes }
  else
    TrackerResult.plain { t with lag := min Config.lagCap (t.lag + (-c).toNat * Config.unitsPerSu) }

/-- Both corrections, with a change into FOLLOWING ahead of the change the jump makes (R123; log entry
15). -/
def Tracker.correct (i : Installed) (now : Frame) (error : Int) (anchor : Bool)
    (first : List (TrackerState × StateCause)) (t : Tracker) : TrackerResult :=
  let r := t.phaseCorrect i now error anchor
  { tracker := r.tracker.rateCorrect i error, reports := r.reports, changes := first ++ r.changes }

/-! ### Messages and announcements of the cue matcher (R121, R123, R126, R127) -/

/-- The catch-up of a Wait end in units of the fraction (R126 step 1). -/
def Tracker.catchUp (t : Tracker) (now fused : Frame) : Nat := (now - fused).toNat * t.tempo * 2048 / 125

/-- A Wait end in WAITING (R126). Where its catch-up saturates the range, RANGE_END is raised, FOLLOWING is
entered (WAIT_END), and then HALTED: the order is the model's choice (R132; log entry 15). -/
def Tracker.endWait (now fused : Frame) (t : Tracker) : TrackerResult :=
  let l := t.landing (t.position + t.catchUp now fused)
  { tracker := { t with lag := 0 }.land now l, reports := t.rangeReports l,
    changes := (.following, .waitEnd) :: l.changes }

/-- A Capture or a Correction (R123). -/
def Tracker.takeCorrection (i : Installed) (now : Frame) (error : Int) (anchor : Bool) (t : Tracker) :
    TrackerResult :=
  match t.state with
  | .leading | .coasting => t.correct i now error anchor [(.following, .capture)]
  | .following => t.correct i now error anchor []
  | .waiting => TrackerResult.plain { t.rateCorrect i error with returnState := some .following }
  | .idle | .winding | .halted | .stopping => TrackerResult.plain t

/-- A Wait end (R123). -/
def Tracker.takeWaitEnd (now fused : Frame) (t : Tracker) : TrackerResult :=
  match t.state with
  | .leading | .coasting => { tracker := t, reports := [], changes := [(.following, .waitEnd)] }
  | .waiting => t.endWait now fused
  | .following | .idle | .winding | .halted | .stopping => TrackerResult.plain t

/-- A Loss (R123). -/
def Tracker.takeLoss (t : Tracker) : TrackerResult :=
  match t.state with
  | .following => { tracker := t, reports := [], changes := [(.coasting, .loss)] }
  | .waiting => TrackerResult.plain { t with returnState := some .coasting }
  | .leading | .coasting | .idle | .winding | .halted | .stopping => TrackerResult.plain t

/-- A Wait expired (R123, R127). -/
def Tracker.takeWaitExpired (t : Tracker) : TrackerResult :=
  match t.state with
  | .following | .coasting => { tracker := t, reports := [], changes := [(.leading, .waitExpired)] }
  | .waiting => { tracker := t, reports := [], changes := (.leading, .waitExpired) :: t.waitCheck }
  | .leading | .idle | .winding | .halted | .stopping => TrackerResult.plain t

/-- A message, taken by the tracker's own state (R123). -/
def Tracker.takeMessage (i : Installed) (now : Frame) (msg : Message) (t : Tracker) : TrackerResult :=
  match msg with
  | .firstCapture => TrackerResult.plain t
  | .capture error anchor | .correction error anchor => t.takeCorrection i now error anchor
  | .waitEnd fused => t.takeWaitEnd now fused
  | .loss => t.takeLoss
  | .waitExpired => t.takeWaitExpired

/-- A wait-stamp announcement without a message (R125, R127). -/
def Tracker.takeStamp (stamp : Option Nat) (t : Tracker) : TrackerResult :=
  let u := { t with waitStamp := stamp }
  match t.state with
  | .leading | .following | .coasting => { tracker := u, reports := [], changes := u.waitCheck }
  | .waiting =>
    if u.onWaitStamp || u.waitStampStale then TrackerResult.plain u
    else { tracker := u, reports := [], changes := [(t.returnState.getD .leading, .waitReleased)] }
  | .idle | .winding | .halted | .stopping => TrackerResult.plain u

/-- One delivery of the cue matcher: first the wait stamp, then the message (R121). -/
def Tracker.deliver (i : Installed) (now : Frame) (stamp : Option Nat) (msg : Option Message)
    (t : Tracker) : TrackerResult :=
  match msg with
  | none => t.takeStamp stamp
  | some m => { t with waitStamp := stamp }.takeMessage i now m

/-! ### Commands, TEMPO records, installation (R124, R129, R133) -/

/-- The steps of an accepted START before WINDING is entered (R129). -/
def Tracker.start (stamp tempo : Nat) (t : Tracker) : Tracker :=
  { t with position := stamp * Config.unitsPerSu, tempo := tempo, lag := 0, remainder := 0,
           resume := false, trail := List.replicate Config.trailLength stamp }

/-- A released TEMPO entry (R124). -/
def Tracker.setTempo (slot tempo : Nat) (t : Tracker) : TrackerResult :=
  { tracker := { t with tempo := tempo }, reports := [.tempoSet slot tempo t.tempo], changes := [] }

/-- The installation of a configuration (R117, R133, R134). -/
def Tracker.install (i : Installed) (t : Tracker) : Tracker :=
  { t with position := 0, tempo := min i.tmax (max i.tmin Config.resetTempo), lag := 0, remainder := 0,
           trail := List.replicate Config.trailLength 0, returnState := none, resume := false,
           awaitingClear := false }

/-- The changes of state at the end of WINDING: LEADING, then WAITING on the wait stamp (R130). -/
def Tracker.leadChanges (t : Tracker) : List (TrackerState × StateCause) :=
  (.leading, .windReady) :: t.waitCheck

end Sys2Proof.Machine
end

