-- ==== Sys2Proof/Machine/RunController.lean ====
section
/-! DEFINITION. The run controller (chapter 8) on its own state: run block copies, tests of the commands, the
CANCEL sampler, the wind state with its counters, and the tracker's announcements. -/

namespace Sys2Proof.Machine

/-! ### Run block copies (R135) -/

/-- A processor write of a run block word: the copy takes it, marked while LOADING (R135). -/
def RunControl.copyWord (which : RunWord) (v : Word) (loading : Bool) (r : RunControl) : RunControl :=
  match which with
  | .stampLow => { r with stampLow := v, markLow := r.markLow || loading }
  | .stampHigh => { r with stampHigh := v, markHigh := r.markHigh || loading }
  | .nominal => { r with nominal := v, markNominal := r.markNominal || loading }

/-- The marks are cleared at each start of a load (R135). -/
def RunControl.clearMarks (r : RunControl) : RunControl :=
  { r with markLow := false, markHigh := false, markNominal := false }

/-- The installation of a valid configuration: each copy without a mark takes the value the load read
(R135). -/
def RunControl.install (low high nominal : Word) (r : RunControl) : RunControl :=
  { r with stampLow := if r.markLow then r.stampLow else low,
           stampHigh := if r.markHigh then r.stampHigh else high,
           nominal := if r.markNominal then r.nominal else nominal }

/-- The start stamp: words 73 and 72 as one 32-bit value (R135). -/
def RunControl.startStamp (r : RunControl) : Nat := pair r.stampLow r.stampHigh

/-! ### The tests of the commands (R137, R139, R140) -/

/-- The first test of R137 that a START fails, or none. -/
def RunControl.startRefusal (config : ConfigState) (i : Installed) (r : RunControl) :
    Option CommandReason :=
  if r.announced ≠ .idle then some .state
  else if config ≠ .configured then some .configuration
  else if r.cancelHeld then some .cancelHeld
  else if Config.greatestStamp < r.startStamp then some .stamp
  else if r.nominal.toNat < i.tmin ∨ i.tmax < r.nominal.toNat then some .tempo
  else none

/-- The test a STOP fails, or none (R139). -/
def RunControl.stopRefusal (r : RunControl) : Option CommandReason :=
  match r.announced with
  | .idle | .stopping => some .state
  | .winding | .leading | .following | .coasting | .waiting | .halted => none

/-- The first test of R140 that a RESUME fails, or none. -/
def RunControl.resumeRefusal (r : RunControl) : Option CommandReason :=
  if r.announced ≠ .halted then some .state
  else if r.cancelHeld then some .cancelHeld
  else none

/-! ### The frame event: CANCEL (R141), drop (R148), settle (R146), limit (R147), hold (R144) -/

/-- The samples of a frame start: CANCEL first, then WINDOK; an assertion or a release of CANCEL is the next
thing the controller takes, or else the drop test is (R141, R145; log entry 28). -/
def RunControl.sample (cancel windok : Bool) (r : RunControl) : RunControl :=
  let stage : RunStage :=
    if !r.cancelHeld && cancel && r.cancelPrev == some true then .cancelAssert
    else if r.cancelHeld && !cancel && r.cancelPrev == some false then .cancelRelease
    else .done
  { r with cancelPrev := some cancel, windPrev := r.windLast, windLast := some windok, stage := stage }

/-- The WINDOK samples of this frame start and the one before are both high. -/
def RunControl.bothHigh (r : RunControl) : Bool := r.windLast == some true && r.windPrev == some true

/-- The WINDOK samples of this frame start and the one before are both low. -/
def RunControl.bothLow (r : RunControl) : Bool := r.windLast == some false && r.windPrev == some false

/-- The wind drops at this frame start (R148). -/
def RunControl.drops (r : RunControl) : Bool := r.wind == .confirmed && r.bothLow

/-- The settle of a frame start (R145, R146). A settle that ends in confirmation leaves the stage at
`confirm`. -/
def RunControl.settleStep (windSettle : Nat) (r : RunControl) : RunControl :=
  if r.announced = .winding then
    match r.wind with
    | .unconfirmed =>
      if r.bothHigh then
        if windSettle = 0 then { r with settle := 0, stage := .confirm }
        else { r with wind := .settling, settle := 0 }
      else r
    | .settling =>
      if r.windLast = some true then
        if windSettle ≤ r.settle + 1 then { r with settle := r.settle + 1, stage := .confirm }
        else { r with settle := r.settle + 1 }
      else { r with wind := .unconfirmed, settle := 0 }
    | .unrequested | .confirmed => r
  else r

/-- The wind is confirmed and its readiness is not yet reported in this WINDING (R145). -/
def RunControl.readyDue (r : RunControl) : Bool :=
  r.announced == .winding && r.wind == .confirmed && !r.readyReported

/-- The ready report: once per WINDING; the limit counter stops (R145). -/
def RunControl.reportReady (r : RunControl) : RunControl :=
  { r with readyReported := true, limitRunning := false }

/-- The limit counter at a frame start, after the settle; the limit is the next thing taken when it is
reached (R147). -/
def RunControl.limitStep (windLimit : Nat) (r : RunControl) : RunControl :=
  if r.limitRunning then
    if windLimit ≤ r.limit + 1 ∧ r.wind ≠ .confirmed then { r with stage := .limit }
    else { r with limit := min 65535 (r.limit + 1) }
  else r

/-- The limit is reached: the counter stops, and a settle in progress ends (R147). -/
def RunControl.reachLimit (windLimit : Nat) (r : RunControl) : RunControl :=
  { r with limit := windLimit, limitRunning := false, wind := .unconfirmed, settle := 0 }

/-- The hold timer at a frame start; its end is the next thing taken when it would reach 0 (R144). -/
def RunControl.holdStep (r : RunControl) : RunControl :=
  if r.holdRunning then
    if r.hold ≤ 1 then { r with stage := .hold } else { r with hold := r.hold - 1 }
  else r

/-- WINDREQ rises, if it is low: the wind becomes UNCONFIRMED (R144, R145). -/
def RunControl.raiseRequest (r : RunControl) : RunControl :=
  if r.windReq then r else { r with windReq := true, wind := .unconfirmed }

/-- WINDREQ falls with the hold timer at 0: the wind becomes UNREQUESTED (R144, R145). -/
def RunControl.lowerRequest (r : RunControl) : RunControl :=
  { r with hold := 0, holdRunning := false, windReq := false, wind := .unrequested }

/-- A settle in progress ends without confirmation, and the limit counter stops (R139, R146, R147). -/
def RunControl.endWinding (r : RunControl) : RunControl :=
  { r with limitRunning := false, settle := 0,
           wind := if r.wind = .settling then .unconfirmed else r.wind }

/-- The tracker's announced change of state (R138 to R140, R144 to R149). -/
def RunControl.announce (windHold : Nat) (new : TrackerState) (r : RunControl) : RunControl :=
  let a := { r with announced := new }
  match new with
  | .idle =>
    if windHold = 0 then a.lowerRequest else { a with hold := windHold * 1000, holdRunning := true }
  | .winding =>
    { a.raiseRequest with holdRunning := false, readyReported := false, limit := 0,
                          limitRunning := true }
  | .halted => a.endWinding
  | .stopping => { a.raiseRequest.endWinding with holdRunning := false }
  | .leading | .following | .coasting | .waiting => a

end Sys2Proof.Machine
end

