-- ==== Sys2Proof/Machine/ReportWriter.lean ====
section
/-! DEFINITION. The report writer (chapter 10) on its own state: the report queue, the log indices with ATTN,
the lost count, and the tasks. `i` is the installed region map. -/

namespace Sys2Proof.Machine

/-- A loss counted: both counts rise by 1, neither above 65 535 (R168). -/
def ReportWriter.countLoss (w : ReportWriter) : ReportWriter :=
  { w with lostCount := min Config.lostLimit (w.lostCount + 1),
           lostTotal := min Config.lostLimit (w.lostTotal + 1) }

/-- Take a report: append it to the queue, or count it when the queue is full (R165). -/
def ReportWriter.take (r : Record) (w : ReportWriter) : ReportWriter :=
  if Config.reportCapacity ≤ w.queue.length then w.countLoss else { w with queue := w.queue ++ [r] }

/-- Take reports in their order (R165). -/
def ReportWriter.takeAll (l : List Raised) (w : ReportWriter) : ReportWriter :=
  l.foldl (fun w r => w.take r.record) w

/-- The log has room (R166). -/
def ReportWriter.room (i : Installed) (w : ReportWriter) : Bool :=
  (w.producer + 1) % i.logCount != w.consumer

/-- Bring ATTN up to date (R170). -/
def ReportWriter.updateAttn (w : ReportWriter) : ReportWriter :=
  { w with attn := w.producer != w.consumer }

/-- Consecutive addresses for the words of a task. -/
def addressed : Nat → List Word → List (Nat × Word)
  | _, [] => []
  | a, v :: t => (a, v) :: addressed (a + 1) t

/-- Begin the write of a record at place P (R166, R167). -/
def ReportWriter.writeRecord (i : Installed) (r : Record) (w : ReportWriter) : ReportWriter :=
  { w with task := some { kind := .record, words := addressed (i.logBase + 8 * w.producer) r.words } }

/-- A record write can begin: no task in progress, no refresh due ahead of it (R167, R173). -/
def ReportWriter.recordMayBegin (w : ReportWriter) : Bool := w.task.isNone && !w.refreshDue

/-- The begin of a record write: a LOST record ahead of the queue, or the queue's head, which is counted
as lost when it finds the log full (R167, R168, R173). -/
def ReportWriter.beginRecord (i : Installed) (now : Frame) (position : Nat) (w : ReportWriter) :
    ReportWriter :=
  if w.recordMayBegin then
    if 0 < w.lostCount ∧ w.room i then
      { w.writeRecord i { report := .lost w.lostCount, frame := now, position := position } with
        lostCount := 0 }
    else
      match w.queue with
      | [] => w
      | r :: q =>
        if w.room i then { w.writeRecord i r with queue := q }
        else { w.countLoss with queue := q }
  else w

/-- The write of the task's first word has completed (R167, R171, R173). -/
def ReportWriter.wordDone (i : Installed) (w : ReportWriter) : ReportWriter :=
  match w.task with
  | none => w
  | some t =>
    match t.words.tail with
    | a :: rest => { w with task := some { t with words := a :: rest } }
    | [] =>
      match t.kind with
      | .record =>
        let p := (w.producer + 1) % i.logCount
        { w with producer := p,
                 task := some { kind := .producerWord, words := [(i.statusBase + 11, capped p)] }
          }.updateAttn
      | .producerWord | .refresh => { w with task := none }

/-- A processor write of word 76 (R169). -/
def ReportWriter.writeConsumer (i : Installed) (v : Nat) (w : ReportWriter) : ReportWriter :=
  if v < i.logCount then { w with consumer := v }.updateAttn else w

/-- A refresh falls due (R171). -/
def ReportWriter.demandRefresh (w : ReportWriter) : ReportWriter := { w with refreshDue := true }

/-- The records an installation abandons (R174 step 2). -/
def ReportWriter.abandoned (w : ReportWriter) : Nat :=
  w.lostCount + w.queue.length +
    match w.task with
    | some t => if t.kind = .record then 1 else 0
    | none => 0

/-- The installation of a valid anchor (R174); the ANCHOR record carries the frame of the event and the
position 0 that the same event installs (log entry 19). -/
def ReportWriter.install (i : Installed) (now : Frame) (w : ReportWriter) : ReportWriter :=
  { w with
    task := none, producer := 0, consumer := 0, lostCount := 0, lostTotal := 0, attn := false,
    queue := [{ report := .anchor (.loaded i.slotCount i.logCount w.abandoned), frame := now,
                position := 0 }],
    refreshDue := true }

end Sys2Proof.Machine
end

