-- ==== Sys2Proof/Machine/SenseLink.lean ====
section
/-! DEFINITION. The sense link controller (chapter 4) on one pickup's entry of the pickup table: health,
onset acceptance, the setup handshake, the timeout, pickup commits and installation. -/

namespace Sys2Proof.Machine

/-- The pickup is in a monitored state (R61). -/
def Pickup.monitored (p : Pickup) : Bool :=
  match p.state with
  | .configuring | .listening | .fault => true
  | .disabled | .silent => false

/-- Setup value i of an entry (R63, R64). -/
def PickupEntry.value (e : PickupEntry) (i : Nat) : Nat :=
  match i with
  | 1 => e.value1
  | 2 => e.value2
  | 3 => e.value3
  | _ => e.value4

/-- What the LST slot carries, by state and handshake phase (R63). -/
def Pickup.lstSettled (p : Pickup) : LstSlot :=
  match p.state, p.handshake with
  | .configuring, some h =>
    match h.phase with
    | .awaiting | .sending => { present := true, value := p.entry.value h.index }
    | .leadIn | .gap | .ending => { present := false, value := 0 }
  | _, _ => { present := false, value := 0 }

/-- Settle what the next LST slot to begin will carry (R60, R63). -/
def Pickup.settle (p : Pickup) : Pickup := { p with lst := p.lstSettled }

/-- The quiet count after a frame whose LST slot carried what `lst` holds (R63). -/
def Pickup.quietAfter (p : Pickup) : Nat := if p.lst.present then 0 else min 2 (p.quiet + 1)

/-- The health values at the entry into a monitored state from outside, at DISABLED and at SILENT: runs 0,
last liveness and last code none, no candidate (R62, R66, R80, R83). -/
def Pickup.clearHealth (p : Pickup) : Pickup :=
  { p with parityRun := 0, stuckRun := 0, goodRun := 0, lastLiveness := none, lastCode := none,
           candidate := none }

/-- The handshake record at the beginning of a message (R74). -/
def Handshake.atStart (quiet : Nat) : Handshake :=
  { phase := if quiet = 2 then .awaiting else .leadIn, index := 1, active := 0, inactive := 0,
    ackedOnce := false, frames := 0, timeoutDue := false }

/-- Enter CONFIGURING, or stay in it, with a message beginning (R74). -/
def Pickup.beginMessage (p : Pickup) : Pickup :=
  { p with state := .configuring, handshake := some (Handshake.atStart p.quiet), candidate := none }

/-- Enter LISTENING, or stay in it (R73, R79). -/
def Pickup.listen (p : Pickup) : Pickup := { p with state := .listening, handshake := none }

/-- Enter FAULT: the three runs become 0, the last liveness and code are kept (R68). -/
def Pickup.enterFault (p : Pickup) : Pickup :=
  { p with state := .fault, parityRun := 0, stuckRun := 0, goodRun := 0, candidate := none,
           handshake := none }

/-- Enter SILENT by an abort or a timeout (R80, R81). -/
def Pickup.enterSilent (p : Pickup) : Pickup :=
  { p.clearHealth with state := .silent, handshake := none }

/-- Leave FAULT, recovered (R69). -/
def Pickup.recover (p : Pickup) : Pickup :=
  let q := { p with parityRun := 0, stuckRun := 0, goodRun := 0 }
  if p.entry.count = 0 then q.listen else q.beginMessage

/-- What a slot event, a commit or a timeout does to a pickup: its new entry, the reason of the PICKUP
report it raises, if any, and the onset it accepts, if any. -/
structure PickupResult where
  pickup : Pickup
  reason : Option PickupReason
  onset  : Option Onset
  deriving DecidableEq, Repr

/-- A result with no report and no onset. -/
def PickupResult.plain (p : Pickup) : PickupResult := { pickup := p, reason := none, onset := none }

/-- A result with a report and no onset. -/
def PickupResult.because (p : Pickup) (r : PickupReason) : PickupResult :=
  { pickup := p, reason := some r, onset := none }

/-! ### Health (R62, R66 to R69) -/

/-- The classes of a good slot's liveness (R62). -/
inductive LivenessClass where
  | reference | advancing | stuck
  deriving DecidableEq, Repr

/-- Class a liveness against the last one (R62). -/
def classLiveness (last : Option Nat) (now : Nat) : LivenessClass :=
  match last with
  | none => .reference
  | some l => if now = (l + 1) % 4 then .advancing else .stuck

/-- The stuck run after a good slot of this class (R62). -/
def stuckRunAfter (run : Nat) : LivenessClass → Nat
  | .reference => run
  | .advancing => 0
  | .stuck => min Config.stuckLimit (run + 1)

/-- The good run after a good slot in FAULT (R69). -/
def goodRunAfter (run : Nat) (c : LivenessClass) (code : Nat) : Nat :=
  match c with
  | .stuck => 0
  | .advancing => if code = 15 then 0 else min Config.goodLimit (run + 1)
  | .reference => if code = 15 then 0 else run

/-- Steps 1, 2 and 4 of R66. -/
def Pickup.noteGood (p : Pickup) (code liveness : Nat) : Pickup :=
  { p with parityRun := 0, stuckRun := stuckRunAfter p.stuckRun (classLiveness p.lastLiveness liveness),
           lastLiveness := some liveness, lastCode := some code }

/-- The health values after a parity failure (R67); the handshake's ack runs become 0. -/
def Pickup.noteParityFailure (p : Pickup) : Pickup :=
  { p with parityRun := min Config.parityLimit (p.parityRun + 1), stuckRun := 0, goodRun := 0,
           lastLiveness := none, lastCode := none, candidate := none,
           handshake := p.handshake.map (fun h => { h with active := 0, inactive := 0 }) }

/-! ### The handshake (R74 to R81) -/

/-- Put a handshake record into the pickup. -/
def Pickup.withHandshake (p : Pickup) (h : Handshake) : Pickup := { p with handshake := some h }

/-- A frame of the current value without its acknowledgement: the value frame count rises by 1, or its
timeout is due when it would reach 50 (R81; log entry 27). -/
def Handshake.countFrame (h : Handshake) : Handshake :=
  if Config.valueFrameLimit ≤ h.frames + 1 then { h with timeoutDue := true }
  else { h with frames := h.frames + 1 }

/-- The ack inactive run rises by 1, up to 2 (R74). -/
def Handshake.inactiveAck (h : Handshake) : Handshake :=
  { h with active := 0, inactive := min 2 (h.inactive + 1) }

/-- The abort test (R80). -/
def Handshake.aborts (h : Handshake) : Bool := h.ackedOnce && h.inactive == 2

/-- The message after value i is acknowledged (R77). -/
def Handshake.acknowledge (h : Handshake) (count : Nat) : Handshake :=
  if h.index < count then
    { h with phase := .gap, index := h.index + 1, active := 0, inactive := 0, ackedOnce := true,
             frames := 0 }
  else { h with phase := .ending, active := 0, inactive := 0, ackedOnce := true, frames := 0 }

/-- A good slot with ack inactive in SENDING, AWAITING re-arm or GAP: the abort test comes first, then the
value's frame is counted if the frame carried the value (R76 to R81; log entry 16). -/
def Pickup.inactiveAck (p : Pickup) (h : Handshake) (counted : Bool) : PickupResult :=
  let h1 := { h.inactiveAck with phase := .sending }
  if h1.aborts then PickupResult.because p.enterSilent .abort
  else if counted then PickupResult.plain (p.withHandshake h1.countFrame)
  else PickupResult.plain (p.withHandshake h1)

/-- LEAD-IN and ENDING, which go by the quiet count alone (R75, R79). `p` holds the new quiet count. -/
def Pickup.quietPhase (p : Pickup) (h : Handshake) : PickupResult :=
  if h.phase = .ending then
    if p.quiet = 2 then PickupResult.because p.listen .setupDone else PickupResult.plain p
  else if p.quiet = 2 then PickupResult.plain (p.withHandshake { h with phase := .awaiting })
  else PickupResult.plain p

/-- The handshake at a good slot (R75 to R80). -/
def Pickup.handshakeGood (p : Pickup) (h : Handshake) (ack : Bool) : PickupResult :=
  match h.phase with
  | .leadIn | .ending => p.quietPhase h
  | .awaiting =>
    if ack then PickupResult.plain (p.withHandshake { h with inactive := 0 }.countFrame)
    else p.inactiveAck h true
  | .sending =>
    if ack then
      if h.active + 1 = 2 then PickupResult.plain (p.withHandshake (h.acknowledge p.entry.count))
      else PickupResult.plain (p.withHandshake { h with active := h.active + 1, inactive := 0 }.countFrame)
    else p.inactiveAck h true
  | .gap =>
    if ack then PickupResult.plain (p.withHandshake { h with inactive := 0, phase := .awaiting })
    else p.inactiveAck h false

/-- The handshake at a parity failure; the ack runs are already 0 (R67, R76 to R79, R81). -/
def Pickup.handshakeParity (p : Pickup) (h : Handshake) : PickupResult :=
  match h.phase with
  | .leadIn | .ending => p.quietPhase h
  | .awaiting | .sending => PickupResult.plain (p.withHandshake h.countFrame)
  | .gap => PickupResult.plain (p.withHandshake { h with phase := .awaiting })

/-! ### Onsets (R71, R72) -/

/-- The onset tests of a LISTENING pickup at a good slot; `before` is the last code before the slot. -/
def Pickup.onsetTests (k : PickupNo) (now : Frame) (p : Pickup) (before : Option Nat) (code : Nat) :
    PickupResult :=
  match p.candidate with
  | none =>
    if 1 ≤ code ∧ code ≤ 14 ∧ before = some 0 then
      PickupResult.plain { p with candidate := some { strength := code, frame := now } }
    else PickupResult.plain p
  | some c =>
    { pickup := { p with candidate := none }, reason := none,
      onset := if code = c.strength then
          some { pickup := k, strength := c.strength, frame := c.frame, arrival := now }
        else none }

/-! ### The slot event (R60, R66) -/

/-- Step 5 of R66 in FAULT: the recovery test (R69). -/
def Pickup.recoveryTest (p : Pickup) (c : LivenessClass) (code : Nat) : PickupResult :=
  let q := { p with goodRun := goodRunAfter p.goodRun c code }
  if q.goodRun = Config.goodLimit then PickupResult.because q.recover .recovered
  else PickupResult.plain q

/-- A good slot of a monitored pickup (R66). `p` holds the new quiet count. -/
def Pickup.goodSlot (k : PickupNo) (now : Frame) (p : Pickup) (code : Nat) (ack : Bool)
    (liveness : Nat) : PickupResult :=
  let q := p.noteGood code liveness
  if p.state = .fault then q.recoveryTest (classLiveness p.lastLiveness liveness) code
  else if code = 15 ∧ p.lastCode = some 15 then PickupResult.because q.enterFault .faultCode
  else if q.stuckRun = Config.stuckLimit then PickupResult.because q.enterFault .stuck
  else
    match p.handshake with
    | some h => q.handshakeGood h ack
    | none => q.onsetTests k now p.lastCode code

/-- A parity failure of a monitored pickup (R67, R68). `p` holds the new quiet count. -/
def Pickup.parityFailure (p : Pickup) : PickupResult :=
  let q := p.noteParityFailure
  if p.state = .fault then PickupResult.plain q
  else if q.parityRun = Config.parityLimit then PickupResult.because q.enterFault .parity
  else
    match q.handshake with
    | some h => q.handshakeParity h
    | none => PickupResult.plain q

/-- The slot event of pickup k, taken whole (R60). -/
def Pickup.slotEvent (k : PickupNo) (now : Frame) (bits : BitVec 8) (p : Pickup) : PickupResult :=
  let q := { p with quiet := p.quietAfter }
  let r :=
    if !q.monitored then PickupResult.plain q
    else if slotGood bits then q.goodSlot k now (slotCode bits) (slotAck bits) (slotLiveness bits)
    else q.parityFailure
  { r with pickup := r.pickup.settle }

/-- The value frame count has reached 50: the message times out (R81). No effect when no timeout is due. -/
def Pickup.takeTimeout (p : Pickup) : PickupResult :=
  match p.handshake with
  | some h =>
    if h.timeoutDue then PickupResult.because p.enterSilent.settle .timeout
    else PickupResult.plain p
  | none => PickupResult.plain p

/-! ### Commits and installation (R83, R84) -/

/-- Enter CONFIGURING or LISTENING by the entry's value count. -/
def Pickup.enterByCount (p : Pickup) : Pickup :=
  if p.entry.count = 0 then p.listen else p.beginMessage

/-- Enter DISABLED (R83). -/
def Pickup.disable (p : Pickup) : Pickup := { p.clearHealth with state := .disabled, handshake := none }

/-- The table of R83: an accepted entry delivered to a pickup. -/
def Pickup.commit (e : PickupEntry) (p : Pickup) : PickupResult :=
  let q := { p with entry := e }
  let r :=
    match p.state with
    | .disabled =>
      if e.enabled then PickupResult.because q.clearHealth.enterByCount .commit
      else PickupResult.plain q
    | .silent =>
      if e.enabled then PickupResult.because q.clearHealth.enterByCount .commit
      else PickupResult.plain q
    | .configuring | .listening =>
      if e.enabled then PickupResult.because q.enterByCount .commit
      else PickupResult.because q.disable .commit
    | .fault =>
      if e.enabled then PickupResult.plain q else PickupResult.because q.disable .commit
  { r with pickup := r.pickup.settle }

/-- An entry delivered by a pickup-entry fetch: a value count of 5 to 7 is refused (R83). -/
def Pickup.deliver (e : PickupEntry) (p : Pickup) : PickupResult :=
  if 4 < e.count then PickupResult.because p .badEntry else p.commit e

/-- The pickup at the installation of a configuration (R84). -/
def Pickup.install (e : PickupEntry) (p : Pickup) : Pickup :=
  let q := { p with entry := e }.clearHealth
  (if e.enabled then q.enterByCount else { q with state := .disabled, handshake := none }).settle

/-! ### The largest delay (R102) -/

/-- The largest delay among the pickups that are LISTENING, 0 with none. -/
def Link.largestDelay (l : Link) : Nat :=
  l.pickups.toList.foldl (fun n p => if p.state = .listening then max n p.entry.delay else n) 0

end Sys2Proof.Machine
end

