-- ==== Sys2Proof/Machine/Ops.lean ====
section
/-! DEFINITION. The operations the commands share, over the whole state: raising reports, the slot map, sweep
requests and mask changes, the tracker's changes of state with their announcements (R115), the delivery of
the cue matcher's results (R121), the start of a load (R158), and the arbiter's requests and grants. -/

namespace Sys2Proof.Machine

/-! ### Reports -/

/-- Raise a report with the frame count and the integer position of the moment; no block raises one while no
log is installed (R165). -/
def State.raise (block : Block) (r : Report) (s : State) : State :=
  if s.loader.installed.isSome then
    { s with raised := s.raised ++
        [{ block := block,
           record := { report := r, frame := s.link.frame, position := s.tracker.integer } }] }
  else s

/-- Raise reports of one block in their order (R165). -/
def State.raiseAll (block : Block) : List Report → State → State
  | [], s => s
  | r :: t, s => State.raiseAll block t (s.raise block r)

/-- A COMMAND report of a value written to word 75 (R136). -/
def State.commandReport (v : Word) (result : CommandResult) (reason : Option CommandReason)
    (tracker : TrackerState) (holdDrops cueDrops : Nat) (s : State) : State :=
  s.raise .run (.command (.written v) result reason tracker holdDrops cueDrops)

/-- The numbers dropped for an accepted START come to the run controller, if they are on their way: it raises
the COMMAND report of the START with them (R138; log entry 30). -/
def State.bringCounts (s : State) : State :=
  match s.run.startCounts with
  | none => s
  | some (hold, cues) =>
    { s with run := { s.run with startCounts := none } }.commandReport 1 .accepted none .idle hold cues

/-- A status refresh falls due while a status block is installed (R171). -/
def State.demandRefresh (s : State) : State :=
  if s.loader.installed.isSome then { s with report := s.report.demandRefresh } else s

/-- Enter a configuration state; a change makes a refresh due (R157, R171). -/
def State.setConfig (c : ConfigState) (s : State) : State :=
  if s.loader.config = c then s else { s with loader := { s.loader with config := c } }.demandRefresh

/-- A configuration is installed and governs: CONFIGURED or DEFERRED (R157). -/
def State.governed (s : State) : Bool :=
  match s.loader.config with
  | .configured | .deferred => true
  | .unconfigured | .loading => false

/-! ### The slot map (R2) -/

/-- The state of a slot. -/
def State.slot (s : State) (n : Nat) : SlotState := Table.get .free s.admission.slots n

/-- Set the state of a slot. -/
def State.setSlot (n : Nat) (v : SlotState) (s : State) : State :=
  { s with admission := { s.admission with slots := Table.set .free s.admission.slots n v } }

/-- Slots whose entries left their collection become FREE (R16). -/
def State.freeSlots : List Nat → State → State
  | [], s => s
  | n :: t, s => State.freeSlots t (s.setSlot n .free)

/-- The admission unit abandons its fetch: a read already requested or granted will be discarded (R8,
R9). -/
def State.discardFetch (s : State) : State :=
  { s with
    admission := { s.admission with
      request := s.admission.request.map (fun r => { r with discard := true }) },
    path := { s.path with
      port := match s.path.port with
        | some (.fetchRead a _) => some (.fetchRead a true)
        | p => p } }

/-- The emptying of the admission unit at the start of a load and at a teardown (R9, R19); the admission order
starts afresh at 0 (log entry 5). -/
def State.clearAdmission (s : State) : State :=
  let t := s.discardFetch
  { t with admission := { t.admission with slots := [], list := [], fetch := none, nextOrder := 0 } }

/-! ### Starvation (R32) -/

/-- The hold queue became empty, or a run began with it empty (R32). -/
def State.noteEmptied (cause : StarvedCause) (slot : Option Nat) (s : State) : State :=
  if s.release.hold.isEmpty && s.tracker.state.running && !s.release.starved then
    { s with release := { s.release with starved := true } }.raise .release (.starved cause slot)
  else s

/-- The emptying of the hold queue (R34). -/
def State.clearHold (s : State) : State := { s with release := { hold := [], starved := false } }

/-! ### The chest (chapter 3) -/

/-- The write on the port was removed from the FIFO; it completes all the same (R47; log entry 20). -/
def abandonChestWrite (all : Bool) (p : Option PortAccess) : Option PortAccess :=
  match p with
  | some (.chestWrite e live) => some (.chestWrite e (live && !(all || e.on)))
  | q => q

/-- A sweep request (R52). -/
def State.requestSweep (kind : SweepKind) (set : Divisions) (s : State) : State :=
  { s with
    chest := s.chest.requestSweep kind set,
    path := if s.chest.silences kind then
        { s.path with port := abandonChestWrite false s.path.port }
      else s.path }

/-- A mask change (R53). -/
def State.maskChange (d : Division) (mask : Word) (s : State) : State :=
  let t := { s with chest := s.chest.setMask d mask }
  if (s.chest.division d).enabled && s.tracker.state.running then
    t.requestSweep .revoice (Divisions.single d)
  else t

/-- The chest is protected (R56). -/
def State.chestProtected (s : State) : Bool := s.tracker.state != .idle || s.chest.sweep.isSome

/-! ### The start of a load (R158) -/

/-- The tracker takes the matcher's wait stamp in a state that does not act on it (R100, R121). -/
def State.storeWaitStamp (s : State) : State :=
  { s with tracker := { s.tracker with waitStamp := s.matcher.waitStamp } }

/-- A word granted to the chest writer or the anchor loader before a load began is abandoned (R155,
R158). -/
def abandonForLoad (p : Option PortAccess) : Option PortAccess :=
  match p with
  | some (.anchorRead a _) => some (.anchorRead a true)
  | some (.pickupRead a _) => some (.pickupRead a true)
  | q => abandonChestWrite true q

/-- The loader's own state at the start of a load (R158, R163). -/
def Loader.begin (l : Loader) : Loader :=
  { l with load := some [], heldMasks := Vector.replicate 4 none, noted := Vector.replicate 12 none,
           pickupList := [], pickupGot := [] }

/-- The start of an anchor load at every block, and again at each restart (R158, R135). -/
def State.loadStart (s : State) : State :=
  let t := (s.setConfig .loading).clearAdmission.clearHold
  { t with
    loader := t.loader.begin,
    run := t.run.clearMarks,
    matcher := t.matcher.clear,
    chest := t.chest.loadStart,
    fuser := t.fuser.loadStart,
    path := { t.path with port := abandonForLoad t.path.port, writeBacks := [] } }.storeWaitStamp

/-! ### Changes of tracker state (R115) -/

/-- WindHold in force, 0 before any installation (R144). -/
def State.windHold (s : State) : Nat :=
  match s.loader.installed with
  | some i => i.windHold
  | none => 0

/-- The state, the STATE report and the announcements that need no further answer (R115, R171). -/
def State.announce (new : TrackerState) (cause : StateCause) (s : State) : State :=
  let old := s.tracker.state
  let t := s.raise .tracker (.state old new cause)
  { t with
    tracker := t.tracker.enter new,
    matcher := t.matcher.announce old new,
    fuser := t.fuser.announce new,
    run := t.run.announce t.windHold new,
    loader := { t.loader with announced := new } }.demandRefresh

/-- The teardown, at the tracker's entry to STOPPING (R18, R34, R51, R112, R133). -/
def State.teardown (s : State) : State :=
  let t := s.clearAdmission.clearHold
  ({ t with matcher := t.matcher.clear }.storeWaitStamp).requestSweep .off Divisions.all

/-- The tracker's entry into LEADING from WINDING at its neighbours: the REVOICE of a resumed run and a run
that begins with the queue empty (R32, R51, R130). -/
def State.beginRun (resumed : Bool) (s : State) : State :=
  (if resumed then s.requestSweep .revoice Divisions.all else s).noteEmptied .runBegan none

/-- One change of tracker state, with everything its announcement brings (R115, R131, R133, R162). -/
def State.changeState (new : TrackerState) (cause : StateCause) (s : State) : State :=
  let t := s.announce new cause
  match new with
  | .stopping => t.teardown
  | .halted => t.requestSweep .mute Divisions.all
  | .leading => if s.tracker.state = .winding then t.beginRun s.tracker.resume else t
  | .idle => if s.loader.config = .deferred then t.loadStart else t
  | .winding | .following | .coasting | .waiting => t

/-- Changes of state in a row (R115). -/
def State.changeAll : List (TrackerState × StateCause) → State → State
  | [], s => s
  | c :: t, s => State.changeAll t (s.changeState c.1 c.2)

/-- What one event of the tracker does. -/
def State.applyTracker (r : TrackerResult) (s : State) : State :=
  State.changeAll r.changes ({ s with tracker := r.tracker }.raiseAll .tracker r.reports)

/-! ### The cue matcher's results (R16, R100, R121) -/

/-- One delivery of the matcher to the tracker: a changed wait stamp, a message, or both together; a changed
wait stamp also stops a running wait timer (R100, R110, R121). It goes by the wait stamp that the tracker holds, so
between a clearing of stale WAIT cues and its answer (R130) any other event of the cue list, of a plain cue too,
delivers the stamp that the clearing has changed: the model's choice (log entry 12). -/
def State.deliver (message : Option Message) (s : State) : State :=
  let stamp := s.matcher.waitStamp
  if stamp = s.tracker.waitStamp ∧ message = none then s
  else
    let t := if stamp = s.tracker.waitStamp then s else { s with matcher := s.matcher.stopTimer }
    t.applyTracker
      (match s.loader.installed with
       | some i => t.tracker.deliver i t.link.frame stamp message
       | none => t.tracker.takeStamp stamp)

/-- What one event of the cue matcher does. -/
def State.applyMatcher (r : MatcherResult) (s : State) : State :=
  (({ s with matcher := r.matcher }.raiseAll .matcher r.reports).freeSlots r.freed).deliver r.message

/-- A fused onset handed on, if any (R93, R105, R106). -/
def State.takeFused (o : Option FusedOnset) (s : State) : State :=
  match o with
  | none => s
  | some f => s.applyMatcher (s.matcher.takeFused (s.tracker.trailAt f.frame) f)

/-! ### The sense link (R70, R72, R102) -/

/-- The expiry lag recomputed from the pickup states, delays and MergeSpan (R102). -/
def State.recomputeLag (s : State) : State :=
  match s.loader.installed with
  | none => s
  | some i =>
    { s with matcher := { s.matcher with lag := some (expiryLag s.link.largestDelay i.mergeSpan) } }

/-- Hand an accepted onset to the fuser, and its fused onset on (R72, R87 to R93). -/
def State.takeOnset (o : Option Onset) (s : State) : State :=
  match o, s.loader.installed with
  | some x, some i =>
    let c := contributorOf s.link.pickups[x.pickup].entry x
    let r := s.fuser.takeOnset i.mergeSpan i.fusionThreshold c
    { s with fuser := r.1 }.takeFused r.2
  | _, _ => s

/-- What an event does to pickup k: its entry, the PICKUP report, the expiry lag, the onset (R60, R70). -/
def State.applyPickup (k : PickupNo) (r : PickupResult) (s : State) : State :=
  let old := s.link.pickups[k].state
  let t := { s with link := { s.link with pickups := s.link.pickups.set k r.pickup } }
  let u := match r.reason with
    | some x => t.raise .link (.pickup k old r.pickup.state x)
    | none => t
  u.recomputeLag.takeOnset r.onset

/-! ### The arbiter (R155) -/

/-- A hold-queue entry is due: the position has reached its stamp, and no wait stamp stands at or below it
(R24). -/
def State.due (s : State) (e : HoldEntry) : Bool :=
  s.tracker.reached e.stamp &&
    match s.matcher.waitStamp with
    | some w => decide (e.stamp < w)
    | none => true

/-- NOTE_ON and NOTE_OFF entries need FIFO space (R26). -/
def HoldEntry.isNote (e : HoldEntry) : Bool := e.kind == .noteOn || e.kind == .noteOff

/-- The access on the port is the write of a FIFO entry that a sweep or a load has removed (R47). -/
def MemPath.removedWrite (p : MemPath) : Bool :=
  match p.port with
  | some (.chestWrite _ live) => !live
  | _ => false

/-- The occupancy of the chest write FIFO: its entries, and an entry removed from it whose write is granted,
which counts until it completes (R44, R172; log entry 20). -/
def State.fifoCount (s : State) : Nat := s.chest.fifo.length + if s.path.removedWrite then 1 else 0

/-- At least 3 FIFO entries are free (R26). -/
def State.noteRoom (s : State) : Bool := s.fifoCount + Config.noteSpace ≤ Config.fifoCapacity

/-- The release engine waits for FIFO space: its head is a due note entry that finds fewer than 3 entries free,
or that has found so and is not released yet (R26, R46). -/
def State.releaseWaiting (s : State) : Bool :=
  s.tracker.state.running &&
    match s.release.hold with
    | [] => false
    | e :: _ => s.due e && e.isNote && (!s.noteRoom || s.spaceWait == some e.order)

/-- The admission order of the entry for which the release engine waits for FIFO space, if it waits (R26). -/
def State.waitsFor (s : State) : Option Nat :=
  if s.releaseWaiting then s.release.hold.head?.map (fun e => e.order) else none

/-- The release engine begins to wait, waits on, or waits no more: the conditions are taken afresh for another
head and outside the running states (R23, R25, R26). -/
def State.settleWait (s : State) : State := { s with spaceWait := s.waitsFor }

/-- The FIFO has a free entry and the release engine does not wait for space (R43, R46). -/
def State.fifoOpen (s : State) : Bool :=
  decide (s.fifoCount < Config.fifoCapacity) && !s.releaseWaiting

/-- Anchor word 26 + 3d, the stop mask of division d. -/
def stopMaskWord (d : Division) : Nat := 26 + 3 * d.val

/-- The next read of the anchor loader: of its load, or of the pickup at the head of its list (R158,
R163). -/
def State.anchorRequest (s : State) : Option PortAccess :=
  match s.loader.load with
  | some ws => some (.anchorRead ws.length false)
  | none =>
    if s.governed then
      (pickupHead s.loader.pickupList).map
        (fun k => .pickupRead (36 + 3 * k.val + s.loader.pickupGot.length) false)
    else none

/-- The next word of the report writer's task (R167, R171). -/
def ReportWriter.request (w : ReportWriter) : Option PortAccess :=
  match w.task with
  | none => none
  | some t => t.words.head?.map (fun x => .reportWrite x.1 x.2 false)

/-- The highest waiting part requester's access, in the fixed order (R155). -/
def State.partRequest (s : State) : Option PortAccess :=
  match s.chest.fifo with
  | e :: _ => some (.chestWrite e true)
  | [] =>
    match s.admission.request with
    | some r => some (.fetchRead r.address r.discard)
    | none =>
      match s.anchorRequest with
      | some a => some a
      | none =>
        match s.path.writeBacks with
        | b :: _ => some (.writeBack (stopMaskWord b.division) b.mask)
        | [] => s.report.request

/-- Put an access on the port. -/
def State.place (a : PortAccess) (s : State) : State := { s with path := { s.path with port := some a } }

/-- Grant a part request: the admission request is then made, and a write-back leaves its list (R155,
R156). -/
def State.grant (a : PortAccess) (s : State) : State :=
  let t := s.place a
  match a with
  | .fetchRead _ _ => { t with admission := { t.admission with request := none } }
  | .writeBack _ _ => { t with path := { t.path with writeBacks := t.path.writeBacks.tail } }
  | .chestWrite _ _ | .anchorRead _ _ | .pickupRead _ _ | .reportWrite _ _ _ | .procRead _ _
  | .procWrite _ _ => t

/-- A grant made while a processor access waits raises its yield count (R155). -/
def State.countYield (s : State) : State :=
  if s.path.waiting.isSome then { s with path := { s.path with yieldCount := s.path.yieldCount + 1 } }
  else s

/-- Grant the highest part requester; a write-back waits for its own command (log entry 8). -/
def State.grantPart (s : State) : State :=
  match s.partRequest with
  | none => s
  | some (.writeBack _ _) => s
  | some a => s.countYield.grant a

/-! ### Processor accesses: decode (R36, R56, R57, R150, R152) -/

/-- The region in which a processor write is dropped, if it is. -/
def State.dropped (s : State) (a : Nat) : Option DropRegion :=
  match regionOf s.loader.installed a with
  | .chest => if s.chestProtected then some .chest else none
  | .log => some .log
  | .status => some .status
  | .anchor | .score | .other => none

/-- The block that raises a drop's report (10.8). -/
def DropRegion.raisedBy : DropRegion → Block
  | .chest => .chest
  | .log | .status => .memoryPath

/-- A dropped write: its report and the protect-seen flag (R56, R152). -/
def State.drop (a : Nat) (v : Word) (r : DropRegion) (s : State) : State :=
  { s with chest := { s.chest with protectSeen := true } }.raise r.raisedBy (.protectDrop a v r)

/-- The processor's data of an address pass inverted: a chest word of a reverse-polarity division (R57). -/
def State.inverts (s : State) (a : Nat) : Bool :=
  match s.loader.installed with
  | none => false
  | some i => regionOf (some i) a == .chest && (s.chest.division (chestDivision i a)).reverse

/-- READY returns to active with no access waiting. -/
def State.releaseProcessor (s : State) : State := { s with path := { s.path with ready := true } }

/-- The waiting processor access leaves the arbiter, and the yield count becomes 0 (R155). -/
def State.takeWaiting (s : State) : State :=
  { s with path := { s.path with waiting := none, yieldCount := 0 } }

/-- Grant the waiting processor access, decoded at its grant; a write that the decode drops does not use
the port (R150, R155). -/
def State.grantProcessor (a : ProcAccess) (s : State) : State :=
  match a with
  | .read n => s.takeWaiting.place (.procRead n (s.inverts n))
  | .write n v =>
    match s.dropped n with
    | some r => (s.takeWaiting.drop n v r).releaseProcessor.grantPart
    | none => s.takeWaiting.place (.procWrite n (throughPolarity (s.inverts n) v))

/-- The port is free: grant one waiting access (R154, R155). -/
def State.arbitrate (s : State) : State :=
  if s.path.port.isSome then s
  else
    match s.path.waiting with
    | none => s.grantPart
    | some a => if 2 ≤ s.path.yieldCount ∨ s.partRequest = none then s.grantProcessor a else s.grantPart

/-! ### The admission fetch (R6) -/

/-- Begin the fetch of the list's head (R6, R17). -/
def State.beginFetch (s : State) : State :=
  match s.admission.list with
  | [] => s
  | e :: _ =>
    if s.governed && s.admission.fetch.isNone then
      { s with admission := { s.admission with fetch := some [] } }.setSlot e.slot .fetching
    else s

/-- A read of the admission unit is on the port. -/
def MemPath.fetching (p : MemPath) : Bool :=
  match p.port with
  | some (.fetchRead _ _) => true
  | _ => false

/-- Request the next read of the fetch in progress, one at a time (R6, R155). -/
def State.postFetch (s : State) : State :=
  match s.loader.installed, s.admission.fetch, s.admission.list with
  | some i, some ws, e :: _ =>
    if s.admission.request.isNone && !s.path.fetching then
      { s with admission := { s.admission with
          request := some { address := i.scoreBase + 4 * e.slot + ws.length, discard := false } } }
    else s
  | _, _, _ => s

/-- What follows an event that may have created a request, freed the port or FIFO space, or moved the head of
the hold queue. -/
def State.pump (s : State) : State := s.beginFetch.postFetch.arbitrate.settleWait

end Sys2Proof.Machine
end

