-- ==== Sys2Proof/Machine/Admission.lean ====
section
/-! DEFINITION. The admission unit (chapter 1): writes into the score area, withdrawals, the fetch and the
placing of admitted records. -/

namespace Sys2Proof.Machine

/-- Restart the fetch in progress: the words read so far are discarded (R8). -/
def State.restartFetch (s : State) : State :=
  let t := s.discardFetch
  { t with admission := { t.admission with fetch := some [] } }

/-- A commit of a FREE slot with a kind other than EMPTY: listed, or lost to a full list (R3). -/
def State.listSlot (slot : Nat) (v : Word) (s : State) : State :=
  if Config.admissionCapacity ≤ s.admission.list.length then s.raise .admission (.admitOverrun slot)
  else
    let e : AdmissionEntry := { slot := slot, commit := v }
    { s with admission := { s.admission with list := s.admission.list ++ [e] } }.setSlot slot .pending

/-- Withdraw a slot's hold-queue entry: WITHDRAWN, and starvation if the queue becomes empty (R15, R23,
R32). -/
def State.withdrawNote (slot : Nat) (s : State) : State :=
  let t := s.setSlot slot .free
  match s.release.hold.find? (fun e => e.slot == slot) with
  | none => t
  | some e =>
    ({ t with release := { t.release with hold := holdRemove slot t.release.hold } }.raise .admission
      (.withdrawn slot e.kind.toScore)).noteEmptied .withdrawn (some slot)

/-- Withdraw a slot's cue: WITHDRAWN, and the wait stamp that remains (R15, R99, R100). -/
def State.withdrawCue (slot : Nat) (s : State) : State :=
  let t := s.setSlot slot .free
  match s.matcher.cues.find? (fun e => e.slot == slot) with
  | none => t
  | some _ =>
    ({ t with matcher := t.matcher.withdraw slot }.raise .admission (.withdrawn slot .cue)).deliver none

/-- An edit of w0, w1 or w2 by the slot's state (R4, R8, R15). -/
def State.editSlot (slot : Nat) (s : State) : State :=
  match s.slot slot with
  | .free | .pending => s
  | .fetching => s.restartFetch
  | .heldNote => s.withdrawNote slot
  | .heldCue => s.withdrawCue slot

/-- Remove a slot from the admission list; it becomes FREE (R5). -/
def State.unlist (slot : Nat) (s : State) : State :=
  { s with admission := { s.admission with
      list := admissionRemove slot s.admission.list } }.setSlot slot .free

/-- An EMPTY commit by the slot's state (R5). -/
def State.emptySlot (slot : Nat) (s : State) : State :=
  match s.slot slot with
  | .free => s
  | .pending => s.unlist slot
  | .fetching =>
    let t := s.discardFetch.unlist slot
    { t with admission := { t.admission with fetch := none } }
  | .heldNote => s.withdrawNote slot
  | .heldCue => s.withdrawCue slot

/-- Replace the commit word that a listed slot carries (R4, R8). -/
def State.recommit (slot : Nat) (v : Word) (s : State) : State :=
  { s with admission := { s.admission with list := admissionReplace slot v s.admission.list } }

/-- A commit with a kind other than EMPTY by the slot's state (R3, R4, R8, R15). -/
def State.commitSlot (slot : Nat) (v : Word) (s : State) : State :=
  match s.slot slot with
  | .free => s.listSlot slot v
  | .pending => s.recommit slot v
  | .fetching => (s.recommit slot v).restartFetch
  | .heldNote => (s.withdrawNote slot).listSlot slot v
  | .heldCue => (s.withdrawCue slot).listSlot slot v

/-- A processor write to word w0 to w3 (index 0 to 3) of a slot (R1); ignored in LOADING (R17). -/
def State.scoreWrite (slot index : Nat) (v : Word) (s : State) : State :=
  if s.governed then
    if index < 3 then s.editSlot slot
    else if commitKind v = .empty then s.emptySlot slot
    else s.commitSlot slot v
  else s

/-! ### The end of a fetch (R7, R10 to R14) -/

/-- The entry's stamp plus a tolerance is not below the position (R14). -/
def Tracker.within (t : Tracker) (stamp tolerance : Nat) : Bool :=
  t.position ≤ (stamp + tolerance) * Config.unitsPerSu

/-- The WAIT flag of a CUE payload (R176). -/
def cueWait (payload : Word) : Bool := bit payload 8

/-- The ANCHOR flag of a CUE payload (R176). -/
def cueAnchor (payload : Word) : Bool := bit payload 9

/-- A record is discarded as late (R14). -/
def State.tooLate (i : Installed) (r : FetchedRecord) (s : State) : Bool :=
  s.tracker.state.running &&
    match commitKind r.commit with
    | .noteOn => !s.tracker.within r.stamp i.lateTolerance
    | .cue =>
      if cueWait r.w2 then !s.tracker.within r.stamp 0 else !s.tracker.within r.stamp (cueWidth r.w2)
    | .noteOff | .registration | .tempo | .mark | .empty | .illegal => false

/-- The cue entry of a CUE record (R13, R97). -/
def FetchedRecord.cueEntry (r : FetchedRecord) (slot order : Nat) : CueEntry :=
  { slot := slot, stamp := r.stamp, w := cueWidth r.w2, wait := cueWait r.w2, anchor := cueAnchor r.w2,
    order := order }

/-- The hold-queue entry of a record of this kind (R13, R20). -/
def FetchedRecord.holdEntry (r : FetchedRecord) (slot order : Nat) (kind : HoldKind) : HoldEntry :=
  { slot := slot, kind := kind, division := commitDivision r.commit, key := commitKey r.commit,
    stamp := r.stamp, payload := r.w2, order := order }

/-- An accepted offer clears the starved flag (R13, R32). -/
def State.admitted (slot : Nat) (v : SlotState) (s : State) : State :=
  { s with release := { s.release with starved := false } }.setSlot slot v

/-- Offer a record to the hold queue (R13, R22). -/
def State.offerHold (e : HoldEntry) (s : State) : State :=
  if Config.holdCapacity ≤ s.release.hold.length then
    (s.setSlot e.slot .free).raise .admission (.queueFull e.slot)
  else
    { s with release := { s.release with hold := holdInsert e s.release.hold } }.admitted e.slot .heldNote

/-- Offer a record to the cue list (R13, R98, R100). -/
def State.offerCue (e : CueEntry) (s : State) : State :=
  match s.matcher.offer e with
  | none => (s.setSlot e.slot .free).raise .admission (.cueFull e.slot)
  | some m => ({ s with matcher := m }.admitted e.slot .heldCue).deliver none

/-- Place an admissible record that is not late: the offer takes the next admission order (R13). -/
def State.placeRecord (slot : Nat) (r : FetchedRecord) (s : State) : State :=
  let order := s.admission.nextOrder
  let t := { s with admission := { s.admission with nextOrder := order + 1 } }
  match (commitKind r.commit).toHold with
  | some k => t.offerHold (r.holdEntry slot order k)
  | none => t.offerCue (r.cueEntry slot order)

/-- Judge and place a fetched record (R11 to R14). -/
def State.judgeRecord (i : Installed) (slot : Nat) (r : FetchedRecord) (s : State) : State :=
  match r.formError i.tmin i.tmax with
  | some reason => (s.setSlot slot .free).raise .admission (.formError slot reason)
  | none =>
    if s.tooLate i r then
      (s.setSlot slot .free).raise .admission (.lateDiscard slot (commitKind r.commit))
    else s.placeRecord slot r

/-- The slot that ended its fetch leaves the head of the list (R7). -/
def State.leaveList (s : State) : State :=
  { s with admission := { s.admission with list := s.admission.list.tail, fetch := none } }

/-- A word of the fetch has been read (R6). -/
def State.fetchWord (w : Word) (s : State) : State :=
  match s.loader.installed, s.admission.fetch, s.admission.list with
  | some i, some [w0, w1], e :: _ =>
    s.leaveList.judgeRecord i e.slot { w0 := w0, w1 := w1, w2 := w, commit := e.commit }
  | _, some ws, _ => { s with admission := { s.admission with fetch := some (ws ++ [w]) } }
  | _, none, _ => s

end Sys2Proof.Machine
end

