-- ==== Sys2Proof/Machine/AnchorLoader.lean ====
section
/-! DEFINITION. The anchor loader (chapter 9): anchor commits, the words of a load, validation, installation
at every block, the end of LOADING, and the pickup-entry fetches. -/

namespace Sys2Proof.Machine

/-! ### Commits (R157) -/

/-- An anchor commit by the configuration state and the announced tracker state (R157). -/
def State.anchorCommit (s : State) : State :=
  match s.loader.config with
  | .unconfigured | .loading => s.loadStart
  | .configured =>
    if s.loader.announced = .idle then s.loadStart
    else (s.setConfig .deferred).raise .anchorLoader (.anchor .deferred)
  | .deferred => s

/-! ### The end of LOADING (R160, R161) -/

/-- Hand the chest writer, as mask changes, the stop-mask values held for these divisions (R160, R161). -/
def State.takeHeldMasks (held : Vector (Option Word) 4) : List Division → State → State
  | [], s => s
  | d :: t, s =>
    match held[d] with
    | none => State.takeHeldMasks held t s
    | some v => State.takeHeldMasks held t (s.maskChange d v)

/-- The pickup-entry fetches of the noted commits, in pickup order (R160, R161). -/
def notedFetches (noted : Vector (Option Word) 12) : List PickupFetch :=
  (List.finRange 12).filterMap (fun k => (noted[k]).map (fun v => { pickup := k, carried := v }))

/-- The loader's own state once a load is over (R160, R161). -/
def Loader.finish (list : List PickupFetch) (l : Loader) : Loader :=
  { l with load := none, heldMasks := Vector.replicate 4 none, noted := Vector.replicate 12 none,
           pickupList := list, pickupGot := [] }

/-- LOADING ends in CONFIGURED: held stop masks become mask changes, and noted pickup commits are fetched
(R160, R161). -/
def State.enterConfigured (s : State) : State :=
  let t := s.setConfig .configured
  { t with loader := t.loader.finish (notedFetches s.loader.noted) }.takeHeldMasks s.loader.heldMasks
    divisionOrder

/-- An OFF sweep is requested for a tracker left in STOPPING with no OFF sweep running (R161). -/
def State.sweepIfStopping (s : State) : State :=
  if s.tracker.state = .stopping ∧ ¬ s.chest.sweeping .off then s.requestSweep .off Divisions.all else s

/-- An invalid anchor ends the load (R161). -/
def State.rejectAnchor (reason : AnchorReason) (s : State) : State :=
  if s.loader.installed.isSome then
    ((s.raise .anchorLoader (.anchor (.invalid reason))).enterConfigured).sweepIfStopping
  else
    let t := s.setConfig .unconfigured
    { t with loader := t.loader.finish [] }

/-! ### Installation (R160) -/

/-- The division map of words 24 to 35, with the held stop-mask values in place of those read (R160). -/
def installedDivisions (ws : List Word) (held : Vector (Option Word) 4) : Vector DivisionSettings 4 :=
  Vector.ofFn (fun d : Division =>
    let w (j : Nat) : Word := anchorWord ws (24 + 3 * d.val + j)
    parseDivision (w 0) (w 1) ((held[d]).getD (w 2)))

/-- The pickup table after an installation (R84, R160). -/
def installedPickups (ws : List Word) (old : Vector Pickup 12) : Vector Pickup 12 :=
  Vector.ofFn (fun k : PickupNo =>
    let w (j : Nat) : Word := anchorWord ws (36 + 3 * k.val + j)
    (old[k]).install (parsePickup (w 0) (w 1) (w 2)))

/-- A report word on the port is written, and its task is over (R155, R174). -/
def discardReportWrite (p : Option PortAccess) : Option PortAccess :=
  match p with
  | some (.reportWrite a v _) => some (.reportWrite a v true)
  | q => q

/-- The reports raised before an installation are taken under the previous log, those of a START's numbers
among them (R138, R174; log entry 18). -/
def State.takeRaised (s : State) : State :=
  let t := s.bringCounts
  { t with raised := [], report := t.report.takeAll t.raised }

/-- A valid anchor is installed in one event: every block takes its part, and the clearing OFF sweep starts;
the state stays LOADING (R160). -/
def State.install (ws : List Word) (before : State) : State :=
  let s := before.takeRaised
  let i := parseInstalled ws
  let t : State :=
    { s with
      loader := { s.loader with installed := some i, load := none,
                                heldMasks := Vector.replicate 4 none },
      path := { s.path with port := discardReportWrite s.path.port },
      chest := { s.chest with divisions := installedDivisions ws s.loader.heldMasks,
                              protectSeen := false },
      link := { s.link with pickups := installedPickups ws s.link.pickups },
      tracker := s.tracker.install i,
      run := s.run.install (anchorWord ws 72) (anchorWord ws 73) (anchorWord ws 74),
      report := s.report.install i s.link.frame }
  (t.requestSweep .off Divisions.all).recomputeLag

/-- The 78 words of a load, judged whole (R159). -/
def State.judgeAnchor (ws : List Word) (s : State) : State :=
  match anchorError ws with
  | some reason => s.rejectAnchor reason
  | none => s.install ws

/-- A word of the load has been read (R158). -/
def State.anchorReadWord (w : Word) (s : State) : State :=
  match s.loader.load with
  | none => s
  | some ws =>
    let all := ws ++ [w]
    if all.length = Config.anchorWords then s.judgeAnchor all
    else { s with loader := { s.loader with load := some all } }

/-! ### Stop-mask and pickup words (R55, R158, R163) -/

/-- A processor write of a stop-mask word (R55, R158). -/
def State.stopMaskWrite (d : Division) (v : Word) (s : State) : State :=
  let t := { s with path := { s.path with writeBacks := writeBackCancel d s.path.writeBacks } }
  match t.loader.config with
  | .unconfigured => t
  | .loading => { t with loader := { t.loader with heldMasks := t.loader.heldMasks.set d (some v) } }
  | .configured | .deferred => t.maskChange d v

/-- The load has read this anchor word (R158). -/
def Loader.hasRead (l : Loader) (n : Nat) : Bool :=
  match l.load with
  | some ws => n < ws.length
  | none => true

/-- Restart the fetch of pickup k if its entry is being fetched (R163). -/
def Loader.restartPickup (k : PickupNo) (l : Loader) : Loader :=
  if pickupHead l.pickupList = some k then { l with pickupGot := [] } else l

/-- A pickup read on the port is discarded when its pickup's fetch restarts (R163). -/
def abandonPickupRead (restarted : Bool) (p : Option PortAccess) : Option PortAccess :=
  match p with
  | some (.pickupRead a d) => some (.pickupRead a (d || restarted))
  | q => q

/-- A processor write of word 36 + 3k or 37 + 3k (R163). -/
def State.pickupHeldWrite (k : PickupNo) (s : State) : State :=
  if s.governed then
    { s with
      loader := s.loader.restartPickup k,
      path := { s.path with
        port := abandonPickupRead (pickupHead s.loader.pickupList == some k) s.path.port } }
  else s

/-- A pickup commit: a processor write of word 38 + 3k (R158, R163). -/
def State.pickupCommitWrite (k : PickupNo) (v : Word) (s : State) : State :=
  match s.loader.config with
  | .unconfigured => s
  | .loading =>
    if s.loader.hasRead (38 + 3 * k.val) then
      { s with loader := { s.loader with noted := s.loader.noted.set k (some v) } }
    else s
  | .configured | .deferred =>
    let t := s.pickupHeldWrite k
    { t with loader := { t.loader with pickupList := pickupListAdd k v t.loader.pickupList } }

/-- A word of the pickup-entry fetch has been read; after the second the entry is delivered (R163, R83). -/
def State.pickupWord (w : Word) (s : State) : State :=
  match s.loader.pickupList with
  | [] => s
  | e :: rest =>
    match s.loader.pickupGot with
    | [] => { s with loader := { s.loader with pickupGot := [w] } }
    | w0 :: _ =>
      { s with loader := { s.loader with pickupList := rest, pickupGot := [] } }.applyPickup e.pickup
        ((s.link.pickups[e.pickup]).deliver (parsePickup w0 w e.carried))

end Sys2Proof.Machine
end

