-- ==== Sys2Proof/Machine/RunWind.lean ====
section
/-! DEFINITION. The run controller over the whole state: the commands (R136 to R140), CANCEL (R142), the ready
report with the tracker's answer (R130, R145), and the run controller's frame event in its stages. -/

namespace Sys2Proof.Machine

/-! ### The end of WINDING (R130) -/

/-- The tracker asks the cue matcher to clear stale WAIT cues, and stays in WINDING (R130). -/
def State.askClear (s : State) : State :=
  let r := s.matcher.clearStale s.tracker.position
  let t : State :=
    { s with matcher := r.matcher, tracker := { s.tracker with awaitingClear := true } }
  (t.raiseAll .matcher r.reports).freeSlots r.freed

/-- The tracker, in WINDING with the wind reported ready: it clears stale WAIT cues first, or leaves WINDING
(R130). -/
def State.leaveWinding (s : State) : State :=
  if s.tracker.state = .winding then
    if s.tracker.waitStampStale then s.askClear else State.changeAll s.tracker.leadChanges s
  else s

/-- The matcher's answer reaches the tracker with the wait stamp that remains (R130).
An answer to a request of a WINDING that has since been halted or stopped, taken in a later WINDING before the ready
report of that one, only stores the wait stamp; a second request made while an answer is out is merged with the first
into one answer. Both are the model's choice, R130 naming neither (log entry 12). -/
def State.takeClearAnswer (s : State) : State :=
  if s.matcher.clearAnswer then
    let t : State := { s with matcher := { s.matcher with clearAnswer := false } }
    let u := t.deliver none
    if u.tracker.awaitingClear then
      { u with tracker := { u.tracker with awaitingClear := false } }.leaveWinding
    else u
  else s

/-- The ready report, if it is due (R145). -/
def State.reportReady (s : State) : State :=
  if s.run.readyDue then
    ({ s with run := s.run.reportReady }.raise .run (.wind .ready)).leaveWinding
  else s

/-! ### The frame event of the run controller, in one order (R141, R145 to R148, R144; log entry 28) -/

/-- The stage of the frame event. -/
def State.setStage (st : RunStage) (s : State) : State := { s with run := { s.run with stage := st } }

/-- WindSettle and WindLimit in force; the wind is not watched before an installation. -/
def State.windSettings (s : State) : Nat × Nat :=
  match s.loader.installed with
  | some i => (i.windSettle, i.windLimit)
  | none => (0, 0)

/-- After the limit: the hold timer (R144). That it falls after the CANCEL and drop tests of the same frame start is
the model's choice (log entry 28): the manual does not say where in the frame event it falls. -/
def State.runAfterLimit (s : State) : State := { s with run := s.run.holdStep }

/-- After the settle: the limit counter, then the ready report, which stops it (R145, R147). -/
def State.runAfterSettle (s : State) : State :=
  let t : State := { s with run := s.run.limitStep s.windSettings.2 }
  if t.run.stage = .limit then t else t.reportReady.runAfterLimit

/-- After the drop test: the settle (R146). -/
def State.runAfterDrop (s : State) : State :=
  let t : State := { s with run := s.run.settleStep s.windSettings.1 }
  if t.run.stage = .confirm then t else t.runAfterSettle

/-- After the CANCEL sample: the drop test (R148). -/
def State.runAfterCancel (s : State) : State :=
  if s.run.drops then s.setStage .drop else s.runAfterDrop

/-- The start of a frame at the run controller (R141, R145). -/
def State.runFrame (cancel windok : Bool) (s : State) : State :=
  let t : State := { s with run := s.run.sample cancel windok }
  if t.run.stage = .done then t.runAfterCancel else t

/-- The effect of a CANCEL assertion by the announced tracker state (R142). A load from UNCONFIGURED is taken as in
UNCONFIGURED until its installation; from there on, while its clearing sweep still runs, as in LOADING with a chest
area known: the model's reading (log entry 31). -/
def State.cancelEffect (s : State) : State :=
  if s.loader.installed.isSome then
    let t := s.raise .run (.command .cancel .accepted none s.run.announced 0 0)
    if s.run.announced = .stopping then t.requestSweep .off Divisions.all
    else t.changeState .stopping .cancel
  else s

/-- CANCEL has been seen asserted at two consecutive frame starts (R141, R142). -/
def State.runCancelAssert (s : State) : State :=
  let t := s.setStage .done
  ({ t with run := { t.run with cancelHeld := true } }.cancelEffect).runAfterCancel

/-- CANCEL has been seen deasserted at two consecutive frame starts (R141). -/
def State.runCancelRelease (s : State) : State :=
  let t := s.setStage .done
  { t with run := { t.run with cancelHeld := false } }.runAfterCancel

/-- The tracker takes a wind drop by its state (R148). -/
def State.haltByDrop (s : State) : State :=
  if s.tracker.state.running || (s.tracker.state == .winding && s.run.readyReported) then
    s.changeState .halted .windDrop
  else s

/-- The wind drops (R148). -/
def State.runDrop (s : State) : State :=
  let t := s.setStage .done
  (({ t with run := { t.run with wind := .unconfirmed } }.raise .run
    (.wind (.dropped s.run.announced))).haltByDrop).runAfterDrop

/-- The settle has reached WindSettle: the wind is CONFIRMED (R146). -/
def State.runConfirm (s : State) : State :=
  let t := s.setStage .done
  { t with run := { t.run with wind := .confirmed } }.runAfterSettle

/-- The limit counter has reached WindLimit (R147). -/
def State.runLimit (s : State) : State :=
  let t := (s.setStage .done).raise .run (.wind (.limit s.run.wind))
  let u : State := { t with run := t.run.reachLimit t.windSettings.2 }
  (if u.tracker.state = .winding then u.changeState .halted .windLimit else u).runAfterLimit

/-- The hold timer has reached 0 (R144). -/
def State.runHold (s : State) : State :=
  let t := s.setStage .done
  { t with run := t.run.lowerRequest }

/-- Take what the run controller's frame event has come to. -/
def State.runStage (s : State) : State :=
  match s.run.stage with
  | .done => s
  | .cancelAssert => s.runCancelAssert
  | .cancelRelease => s.runCancelRelease
  | .drop => s.runDrop
  | .confirm => s.runConfirm
  | .limit => s.runLimit
  | .hold => s.runHold

/-- Finish the frame event: at most CANCEL, drop, confirmation, limit and hold remain (log entry 28). -/
def State.finishRun (s : State) : State := s.runStage.runStage.runStage.runStage.runStage

/-! ### Commands (R136 to R140) -/

/-- The drop of the entries and cues below the start stamp at an accepted START (R33, R111). -/
def State.dropBelow (stamp : Nat) (s : State) : State :=
  let gone := (s.release.hold.filter (fun e => e.stamp < stamp)).map (fun e => e.slot)
  let cues := s.matcher.startDropped stamp
  let t : State :=
    { s with
      release := { s.release with hold := s.release.hold.filter (fun e => stamp ≤ e.stamp) },
      matcher := s.matcher.startDrop stamp }
  ((t.freeSlots gone).freeSlots cues).storeWaitStamp

/-- The numbers of entries and cues below the start stamp (R33, R111). -/
def State.belowStart (stamp : Nat) (s : State) : Nat × Nat :=
  ((s.release.hold.filter (fun e => e.stamp < stamp)).length, (s.matcher.startDropped stamp).length)

/-- An accepted START (R129, R138). The numbers dropped are then on their way to the run controller, and with
them the COMMAND report is raised (log entry 30); numbers still on their way from a START before come first. -/
def State.acceptStart (s : State) : State :=
  let stamp := s.run.startStamp
  let t := s.bringCounts
  let u : State := { t with tracker := t.tracker.start stamp t.run.nominal.toNat }
  let v := (u.changeState .winding .start).requestSweep .revoice Divisions.all
  let w : State := { v with
    chest := { v.chest with protectSeen := false },
    run := { v.run with startCounts := some (s.belowStart stamp) } }
  w.dropBelow stamp

/-- A START (R137, R138). -/
def State.takeStart (i : Installed) (s : State) : State :=
  match s.run.startRefusal s.loader.config i with
  | some reason => s.commandReport 1 .refused (some reason) s.run.announced 0 0
  | none => s.acceptStart

/-- A STOP (R139). -/
def State.takeStop (s : State) : State :=
  match s.run.stopRefusal with
  | some reason => s.commandReport 2 .refused (some reason) s.run.announced 0 0
  | none => (s.commandReport 2 .accepted none s.run.announced 0 0).changeState .stopping .stop

/-- A RESUME (R129, R140). -/
def State.takeResume (s : State) : State :=
  match s.run.resumeRefusal with
  | some reason => s.commandReport 3 .refused (some reason) s.run.announced 0 0
  | none =>
    let t := s.commandReport 3 .accepted none s.run.announced 0 0
    { t with tracker := { t.tracker with resume := true } }.changeState .winding .resume

/-- A processor write of word 75 (R136): no effect while UNCONFIGURED. While a first load runs the tracker
is IDLE and no log is known, so every command is refused without a report. -/
def State.command (v : Word) (s : State) : State :=
  match s.loader.installed with
  | none => s
  | some i =>
    if v = 0 then s
    else
      let t := s.finishRun
      if v = 1 then t.takeStart i
      else if v = 2 then t.takeStop
      else if v = 3 then t.takeResume
      else t.commandReport v .unknown none t.run.announced 0 0

end Sys2Proof.Machine
end

