-- ==== Sys2Proof/Machine/MemoryPath.lean ====
section
/-! DEFINITION. The memory path (chapter 9): the snooped writes, the completion of an access on the port, and
a processor access from its arrival. -/

namespace Sys2Proof.Machine

/-! ### Snooped writes (R151) -/

/-- A processor write of word 76 at the report writer (R169). -/
def State.consumerWrite (v : Word) (s : State) : State :=
  match s.loader.installed with
  | none => s
  | some i => { s with report := s.report.writeConsumer i v.toNat }

/-- A processor write of word 72, 73 or 74 at the run controller (R135). -/
def State.runBlockCopy (which : RunWord) (v : Word) (s : State) : State :=
  { s with run := s.run.copyWord which v (s.loader.config == .loading) }

/-- A stored processor write of anchor word n is handed to the block that snoops it (R151). -/
def State.anchorSnoop (n : Nat) (v : Word) (s : State) : State :=
  if n < 24 then s
  else if n < 36 then
    if n % 3 = 2 then s.stopMaskWrite (Fin.ofNat 4 ((n - 24) / 3)) v else s
  else if n < 72 then
    let k : PickupNo := Fin.ofNat 12 ((n - 36) / 3)
    if n % 3 = 2 then s.pickupCommitWrite k v else s.pickupHeldWrite k
  else if n = 72 then s.runBlockCopy .stampLow v
  else if n = 73 then s.runBlockCopy .stampHigh v
  else if n = 74 then s.runBlockCopy .nominal v
  else if n = 75 then s.command v
  else if n = 76 then s.consumerWrite v
  else s.anchorCommit

/-- A stored processor write is handed to the block that snoops its word (R1, R151). -/
def State.snoop (a : Nat) (v : Word) (s : State) : State :=
  match regionOf s.loader.installed a, s.loader.installed with
  | .anchor, _ => s.anchorSnoop a v
  | .score, some i => s.scoreWrite ((a - i.scoreBase) / 4) ((a - i.scoreBase) % 4) v
  | _, _ => s

/-! ### The memory (R150, R151) -/

/-- Store a word. -/
def State.store (a : Nat) (v : Word) (s : State) : State := { s with mem := s.mem.write a v }

/-- The processor's data is on PD (R57, R154). -/
def State.returnRead (a : Nat) (inverted : Bool) (s : State) : State :=
  { s with path := { s.path with readData := throughPolarity inverted (s.mem.read a) } }

/-- A processor write is stored, and then handed on (R151). `v` is the value as stored. -/
def State.storeAndSnoop (a : Nat) (v : Word) (s : State) : State := (s.store a v).snoop a v

/-! ### Completion of the access on the port (R154) -/

/-- The head of the chest write FIFO is in memory and leaves the FIFO, unless a sweep or a load has removed
it (R44, R47). -/
def State.finishChestWrite (live : Bool) (s : State) : State :=
  if live then { s with chest := { s.chest with fifo := s.chest.fifo.tail } } else s

/-- A report word is in memory (R167). -/
def State.finishReportWrite (s : State) : State :=
  match s.loader.installed with
  | none => s
  | some i => { s with report := s.report.wordDone i }

/-- What completes with an access: the word is read or written, and its owner takes it (R6, R44, R151, R155,
R158, R163, R167). The port is already free. -/
def State.complete (a : PortAccess) (s : State) : State :=
  match a with
  | .chestWrite e live => (s.store e.address e.stored).finishChestWrite live
  | .fetchRead n discard => if discard then s else s.fetchWord (s.mem.read n)
  | .anchorRead n discard => if discard then s else s.anchorReadWord (s.mem.read n)
  | .pickupRead n discard => if discard then s else s.pickupWord (s.mem.read n)
  | .writeBack n v => s.store n v
  | .reportWrite n v discard => if discard then s.store n v else (s.store n v).finishReportWrite
  | .procRead n inverted => (s.returnRead n inverted).releaseProcessor
  | .procWrite n v => s.releaseProcessor.storeAndSnoop n v

/-- The access on the port completes and the port falls free (R154, R155); nothing happens with the port
free. -/
def State.portDone (s : State) : State :=
  match s.path.port with
  | none => s
  | some a => ({ s with path := { s.path with port := none } }.complete a).pump

/-- Grant the requested write-back, the highest waiting part request, on the free port (R155, R156). -/
def State.grantWriteBack (s : State) : State :=
  match s.path.port, s.partRequest with
  | none, some (.writeBack a v) => s.countYield.grant (.writeBack a v)
  | _, _ => s

/-! ### Processor accesses (R150, R154) -/

/-- A processor access waits, or is on the port. -/
def MemPath.processorBusy (p : MemPath) : Bool :=
  p.waiting.isSome ||
    match p.port with
    | some (.procRead _ _) | some (.procWrite _ _) => true
    | _ => false

/-- One step toward the completion of the processor's access (log entry 7). -/
def State.driveProcessor (s : State) : State :=
  if s.path.processorBusy then
    if s.path.port.isSome then s.portDone else s.grantWriteBack
  else s

/-- The processor's last access completes before the next: at most two of the part's accesses, each with a
grant, and its own (R154, R155; log entry 7). -/
def State.flushProcessor (s : State) : State :=
  s.driveProcessor.driveProcessor.driveProcessor.driveProcessor.driveProcessor.driveProcessor

/-- A processor access begins to wait: the yield count is 1 behind one of the part's accesses, and READY goes
inactive (R154, R155). -/
def State.wait (a : ProcAccess) (s : State) : State :=
  { s with path := { s.path with
      waiting := some a, ready := false, yieldCount := if s.path.port.isSome then 1 else 0 } }

/-- A processor access made at once on the free port (R154). -/
def State.makeAccess (a : ProcAccess) (s : State) : State :=
  match a with
  | .read n => s.returnRead n (s.inverts n)
  | .write n v => s.storeAndSnoop n (throughPolarity (s.inverts n) v)

/-- The region in which an access is dropped at its arrival, if it is (R150). -/
def State.droppedAccess (s : State) : ProcAccess → Option (Nat × Word × DropRegion)
  | .read _ => none
  | .write n v => (s.dropped n).map (fun r => (n, v, r))

/-- A processor access (R150): a dropped write completes as soon as it is decoded, a free port makes the
access at once, and a busy port holds it on READY (R154). -/
def State.access (a : ProcAccess) (s : State) : State :=
  let t := s.flushProcessor
  match t.droppedAccess a with
  | some (n, v, r) => t.drop n v r
  | none => if t.path.port.isSome then t.wait a else (t.makeAccess a).pump

/-- A processor write of a word. -/
def State.processorWrite (a : Nat) (v : Word) (s : State) : State := s.access (.write a v)

end Sys2Proof.Machine
end

