-- ==== Sys2Proof/Machine/FrameRows.lean ====
section
/-! DEFINITION. The meanings of FRAME_START and of the rows that a frame's start brings at the chest writer, the
onset fuser, the cue matcher and the tracker (R59; log entry 10). -/

namespace Sys2Proof.Machine

/-! ### Due events of a frame -/

/-- Pending-on entries whose gap has elapsed become due (R43). -/
def State.markDue (s : State) : State :=
  match s.loader.installed with
  | none => s
  | some i => { s with chest := s.chest.markDue i.repeatGap s.link.frame }

/-- Close an overdue window and hand its fused onset on (R90 to R93). -/
def State.closeWindow (s : State) : State :=
  match s.loader.installed with
  | none => s
  | some i =>
    if s.fuser.overdue s.link.frame then
      let r := s.fuser.close i.fusionThreshold
      { s with fuser := r.1 }.takeFused r.2
    else s

/-- The wait expires, if its expiry is due (R110). -/
def State.expireWait (s : State) : State :=
  match s.loader.installed with
  | none => s
  | some i =>
    if s.matcher.expiryDue then s.applyMatcher (s.matcher.expireWait i.waitLimit) else s

/-- What the frame before has left due is taken before the next frame starts (log entry 10). -/
def State.finishFrame (s : State) : State := s.finishRun.expireWait.closeWindow.markDue

/-! ### The start of a frame -/

/-- The frame count rises, except at the first frame after RESET, whose count is 0 (R59; log entry 9). -/
def Link.nextFrame (l : Link) : Link :=
  if l.begun then { l with frame := l.frame + 1 } else { l with begun := true }

/-- The periodic status refresh (R171). -/
def State.frameRefresh (s : State) : State :=
  if s.link.frame.toNat % Config.refreshPeriod = 0 then s.demandRefresh else s

/-- The start of a frame at the tracker (R118). -/
def State.trackerFrame (s : State) : State := s.applyTracker (s.tracker.frameStart s.link.frame)

/-- The misses of a frame start, one after another (R103, R104). -/
def State.expireCues (lossLimit trail : Nat) : Nat → State → State
  | 0, s => s
  | n + 1, s =>
    match s.matcher.expireOne lossLimit trail with
    | none => s
    | some r => State.expireCues lossLimit trail n (s.applyMatcher r)

/-- The trail position of the frame that lies the expiry lag back (R103). -/
def State.expiryTrail (s : State) : Nat :=
  s.tracker.trailAt (s.link.frame - BitVec.ofNat 32 (s.matcher.lag.getD 0))

/-- The start of a frame at the cue matcher: the expiry test and the wait timer (R103, R110). -/
def State.matcherFrame (s : State) : State :=
  match s.loader.installed with
  | none => s
  | some i =>
    let t : State := { s with matcher := s.matcher.tick i.waitLimit }
    if t.matcher.announced.running then
      State.expireCues i.lossLimit t.expiryTrail t.matcher.cues.length t
    else t

/-- Tracker, cue matcher and run controller take the start of the frame in the sender's order, one of six. For the
run controller this places its two samples, the settle and the counters, as far as `State.runFrame` goes. Its outcomes
(CANCEL asserted or released, wind drop, wind confirmed, limit, hold) are rows that follow FRAME_START, so whatever the
order they reach the tracker after its advance, and the matcher after its test, of that frame start (R131, R148); and
the due events of the fuser (WINDOW_CLOSE), of the chest writer and of the wait timer's expiry come after the three.
Both are the model's choice, R59 ordering no blocks (log entries 10 and 28). -/
def State.frameBlocks (cancel windok : Bool) (order : FrameOrder) (s : State) : State :=
  match order with
  | .tmr => s.trackerFrame.matcherFrame.runFrame cancel windok
  | .trm => (s.trackerFrame.runFrame cancel windok).matcherFrame
  | .mtr => s.matcherFrame.trackerFrame.runFrame cancel windok
  | .mrt => (s.matcherFrame.runFrame cancel windok).trackerFrame
  | .rtm => (s.runFrame cancel windok).trackerFrame.matcherFrame
  | .rmt => (s.runFrame cancel windok).matcherFrame.trackerFrame

/-- FRAME_START (R59). -/
def execFrameStart (cancel windok : Bool) (order : FrameOrder) (s : State) : Answer :=
  let t := s.finishFrame
  let u : State := { t with link := t.link.nextFrame }
  .next (u.frameRefresh.frameBlocks cancel windok order).pump

/-- REPEAT_GAP_DUE: every pending-on entry whose gap has elapsed becomes due (R43). -/
def execRepeatGapDue (s : State) : Answer := .next s.markDue

/-- PENDING_ON_WRITE: the first due entry's on-write is queued (R43, R46). -/
def execPendingOnWrite (s : State) : Answer :=
  match s.loader.installed, s.chest.firstDue with
  | some i, some (d, k) =>
    if s.fifoOpen then .next { s with chest := s.chest.writePending i d k }.pump else .next s
  | _, _ => .next s

/-- WAIT_EXPIRY (R110). -/
def execWaitExpiry (s : State) : Answer := .next s.expireWait.pump

/-- WINDOW_CLOSE (R90). -/
def execWindowClose (s : State) : Answer := .next s.closeWindow.pump

/-- STALE_WAIT_CLEAR_ANSWER (R130). -/
def execStaleWaitClearAnswer (s : State) : Answer := .next s.takeClearAnswer.pump

end Sys2Proof.Machine
end

