-- ==== Sys2Proof/Machine/LinkRows.lean ====
section
/-! DEFINITION. The meanings of the rows of the sense link controller: SLOT_EVENT and TIMEOUT. -/

namespace Sys2Proof.Machine

/-- The pickup's timeout, if it is due (R81; log entry 27). -/
def State.takeTimeout (k : PickupNo) (s : State) : State :=
  s.applyPickup k (s.link.pickups[k]).takeTimeout

/-- SLOT_EVENT of pickup k, taken whole (R60 to R80). -/
def execSlotEvent (k : PickupNo) (bits : BitVec 8) (s : State) : Answer :=
  let t := s.takeTimeout k
  .next (t.applyPickup k ((t.link.pickups[k]).slotEvent k t.link.frame bits)).pump

/-- TIMEOUT of pickup k (R81). -/
def execTimeout (k : PickupNo) (s : State) : Answer := .next (s.takeTimeout k)

end Sys2Proof.Machine
end

