-- ==== Sys2Proof/Machine/PortRows.lean ====
section
/-! DEFINITION. The meanings of the rows that end or grant an access of the memory port. A row whose access is not
on the port has no effect (log entry 1). -/

namespace Sys2Proof.Machine

/-- FETCH_READ_DONE: an admission read completes (R6 to R14). -/
def execFetchReadDone (s : State) : Answer :=
  match s.path.port with
  | some (.fetchRead _ _) => .next s.portDone
  | _ => .next s

/-- ANCHOR_READ_DONE: a read of a load completes (R158 to R161). -/
def execAnchorReadDone (s : State) : Answer :=
  match s.path.port with
  | some (.anchorRead _ _) => .next s.portDone
  | _ => .next s

/-- PICKUP_READ_DONE: a read of a pickup-entry fetch completes (R163). -/
def execPickupReadDone (s : State) : Answer :=
  match s.path.port with
  | some (.pickupRead _ _) => .next s.portDone
  | _ => .next s

/-- CHEST_WRITE_DONE: the write of the FIFO's head completes (R44). -/
def execChestWriteDone (s : State) : Answer :=
  match s.path.port with
  | some (.chestWrite _ _) => .next s.portDone
  | _ => .next s

/-- REPORT_WORD_DONE: a word of the report writer's task completes (R167, R171). -/
def execReportWordDone (s : State) : Answer :=
  match s.path.port with
  | some (.reportWrite _ _ _) => .next s.portDone
  | _ => .next s

/-- PORT_ACCESS_DONE: the access on the port completes, whichever it is, and the arbiter grants the next
(R154, R155; log entry 6). -/
def execPortAccessDone (s : State) : Answer := .next s.portDone

/-- WRITE_BACK_GRANT: the oldest pending write-back is granted (R155, R156). -/
def execWriteBackGrant (s : State) : Answer := .next s.grantWriteBack

end Sys2Proof.Machine
end

