-- ==== Sys2Proof/Machine/ProcessorRows.lean ====
section
/-! DEFINITION. The meanings of the rows that are processor accesses. A row says which writes it names; what an
access does follows from its address and value (R150, R151; log entry 29). -/

namespace Sys2Proof.Machine

/-- SCORE_COMMIT (R3, R4, R8, R15). -/
def execScoreCommit (a : Addr) (v : Word) (s : State) : Answer := .next (s.processorWrite a.toNat v)

/-- EMPTY_COMMIT (R5). -/
def execEmptyCommit (a : Addr) (v : Word) (s : State) : Answer := .next (s.processorWrite a.toNat v)

/-- SCORE_EDIT (R4, R8, R15). -/
def execScoreEdit (a : Addr) (v : Word) (s : State) : Answer := .next (s.processorWrite a.toNat v)

/-- CHEST_WRITE (R56, R57). -/
def execChestWrite (a : Addr) (v : Word) (s : State) : Answer := .next (s.processorWrite a.toNat v)

/-- CHEST_READ (R57); a read of any other address passes unchanged (R150; log entry 21). -/
def execChestRead (a : Addr) (s : State) : Answer := .next (s.access (.read a.toNat))

/-- LOG_STATUS_WRITE (R152). -/
def execLogStatusWrite (a : Addr) (v : Word) (s : State) : Answer := .next (s.processorWrite a.toNat v)

/-- STOP_MASK_WRITE of division d (R55, R158). -/
def execStopMaskWrite (d : Division) (v : Word) (s : State) : Answer :=
  .next (s.processorWrite (stopMaskWord d) v)

/-- PICKUP_COMMIT of pickup k (R158, R163). -/
def execPickupCommit (k : PickupNo) (v : Word) (s : State) : Answer :=
  .next (s.processorWrite (38 + 3 * k.val) v)

/-- The anchor word of a run block word (R135). -/
def runBlockAddress : RunWord → Nat
  | .stampLow => 72
  | .stampHigh => 73
  | .nominal => 74

/-- RUN_BLOCK_WRITE (R135). -/
def execRunBlockWrite (which : RunWord) (v : Word) (s : State) : Answer :=
  .next (s.processorWrite (runBlockAddress which) v)

/-- COMMAND_NONE: 0 written to word 75 (R136). -/
def execCommandNone (s : State) : Answer := .next (s.processorWrite 75 0)

/-- START: 1 written to word 75 (R137, R138). -/
def execStart (s : State) : Answer := .next (s.processorWrite 75 1)

/-- STOP: 2 written to word 75 (R139). -/
def execStop (s : State) : Answer := .next (s.processorWrite 75 2)

/-- RESUME: 3 written to word 75 (R140). -/
def execResume (s : State) : Answer := .next (s.processorWrite 75 3)

/-- COMMAND_UNKNOWN: 4 to 65 535 written to word 75 (R136). -/
def execCommandUnknown (v : Word) (s : State) : Answer := .next (s.processorWrite 75 v)

/-- CONSUMER_INDEX_WRITE: word 76 (R169). -/
def execConsumerIndexWrite (v : Word) (s : State) : Answer := .next (s.processorWrite 76 v)

/-- ANCHOR_COMMIT: word 77 (R157, R158). -/
def execAnchorCommit (v : Word) (s : State) : Answer := .next (s.processorWrite 77 v)

/-- OTHER_WRITE: a held anchor word or a word of region Other (R150, R163). -/
def execOtherWrite (a : Addr) (v : Word) (s : State) : Answer := .next (s.processorWrite a.toNat v)

end Sys2Proof.Machine
end

