-- ==== Sys2Proof/Machine/ReleaseRows.lean ====
section
/-! DEFINITION. The meanings of RELEASE (chapter 2) and of the sweep rows (chapter 3). -/

namespace Sys2Proof.Machine

/-! ### Release (R24 to R32) -/

/-- The head may be released: it is due in a running state and finds its space (R25, R26). -/
def State.releasable (s : State) (e : HoldEntry) : Bool :=
  s.tracker.state.running && s.due e && (!e.isNote || s.noteRoom)

/-- The RELEASE report of an entry, when the release-history option is set (R31). -/
def State.releaseReport (i : Installed) (e : HoldEntry) (s : State) : State :=
  if i.releaseHistory then
    s.raise .release (.release e.slot e.kind e.division e.key (s.tracker.integer - e.stamp))
  else s

/-- A released note entry at the chest writer (R27, R39 to R41). -/
def State.noteAction (i : Installed) (e : HoldEntry) (on : Bool) (s : State) : State :=
  let r := s.chest.noteAction i s.link.frame e.division e.key on
  { s with chest := r.1 }.raiseAll .chest r.2

/-- A released REGISTRATION entry: a mask change and a write-back request (R28, R54). -/
def State.registration (e : HoldEntry) (s : State) : State :=
  let t := s.maskChange e.division e.payload
  { t with path := { t.path with
      writeBacks := writeBackRequest e.division e.payload t.path.writeBacks } }

/-- Dispatch a released entry by its kind (R27 to R30). -/
def State.dispatch (i : Installed) (e : HoldEntry) (s : State) : State :=
  match e.kind with
  | .noteOn => s.noteAction i e true
  | .noteOff => s.noteAction i e false
  | .registration => s.registration e
  | .tempo => s.applyTracker (s.tracker.setTempo e.slot e.payload.toNat)
  | .mark => s.raise .release (.mark e.slot e.payload)

/-- The head leaves the queue and its slot becomes FREE (R16, R25, R31). -/
def State.takeHead (slot : Nat) (rest : List HoldEntry) (s : State) : State :=
  { s with release := { s.release with hold := rest } }.setSlot slot .free

/-- RELEASE: the head of the hold queue is released and dispatched (R25 to R32). -/
def execRelease (s : State) : Answer :=
  match s.loader.installed, s.release.hold with
  | some i, e :: rest =>
    if s.releasable e then
      .next ((((s.takeHead e.slot rest).releaseReport i e).dispatch i e).noteEmptied .released
        (some e.slot)).pump
    else .next s
  | _, _ => .next s

/-! ### Sweeps (R46, R48 to R52) -/

/-- SWEEP_WRITE: the sweep queues its next key when nothing ahead of it wants the space (R46, R48). -/
def execSweepWrite (s : State) : Answer :=
  match s.loader.installed, s.chest.sweep with
  | some i, some w =>
    if !w.passed && s.chest.firstDue.isNone && s.fifoOpen then
      .next { s with chest := s.chest.sweepWrite i w }.pump
    else .next s
  | _, _ => .next s

/-- The loader, waiting for its clearing sweep, takes the end of an OFF sweep (R160). -/
def State.loaderTakesSweepEnd (s : State) : State :=
  if s.loader.config = .loading ∧ s.loader.load = none then s.enterConfigured else s

/-- The tracker in STOPPING takes the end of an OFF sweep (R133). -/
def State.trackerTakesSweepEnd (s : State) : State :=
  if s.tracker.state = .stopping then s.changeState .idle .sweepDone else s

/-- The end of a sweep at the chest writer, and of an OFF sweep at the blocks that wait on it (R48, R52, R133,
R160). -/
def State.takeSweepEnd (w : Sweep) (s : State) : State :=
  let t : State := { s with chest := s.chest.endSweep w }
  if w.kind = .off then t.loaderTakesSweepEnd.trackerTakesSweepEnd else t

/-- The end of an OFF sweep. What the run controller's frame event has left over is taken first, since the end
may bring the tracker into IDLE and start the hold timer; a CANCEL among it restarts the sweep, which has then
not ended (R142, R144, R148; log entry 28). -/
def State.endOff (s : State) : State :=
  let t := s.finishRun
  match t.chest.endedSweep with
  | none => t
  | some w => t.takeSweepEnd w

/-- SWEEP_END: the sweep's last write is in memory (R48, R52, R133, R160). -/
def execSweepEnd (s : State) : Answer :=
  match s.chest.endedSweep with
  | none => .next s
  | some w => .next (if w.kind = .off then s.endOff else s.takeSweepEnd w).pump

end Sys2Proof.Machine
end

