-- ==== Sys2Proof/Machine/ReportRows.lean ====
section
/-! DEFINITION. The meanings of the rows of the report writer and of RESET. -/

namespace Sys2Proof.Machine

/-! ### Taking reports (R165) -/

/-- Causes of the STATE reports that the tracker raises for a match (R108, R121, R123, R126). -/
def StateCause.ofMatch : StateCause → Bool
  | .capture | .waitEnd | .waitReached | .rangeEnd => true
  | .start | .resume | .windReady | .windLimit | .windDrop | .loss | .waitExpired | .waitReleased | .stop
  | .cancel | .sweepDone => false

/-- Causes of the STATE reports behind which the COMMAND of an accepted START stands (R138). -/
def StateCause.aheadOfStart : StateCause → Bool
  | .start | .stop | .cancel => true
  | .resume | .windReady | .windLimit | .windDrop | .capture | .loss | .waitReached | .waitEnd
  | .waitExpired | .waitReleased | .rangeEnd | .sweepDone => false

/-- Report e, raised earlier, must reach the queue before report l: RELEASE before what its dispatch raises
(R31), the overtaken misses and the MATCH of a match before what the tracker raises for it (R108), and the
STATE of an accepted START, or of a STOP or CANCEL ahead of its numbers, before its COMMAND (R138). Reports of
different blocks otherwise come in either order (R165; log entry 13). -/
def Report.mustPrecede (e l : Report) : Bool :=
  match e, l with
  | .release _ _ _ _ _, .holderOverflow _ _ _ => true
  | .release _ _ _ _ _, .unmatchedOff _ _ _ => true
  | .release _ _ _ _ _, .tempoSet _ _ _ => true
  | .miss _ _ _ _ _ overtaken _, .state _ _ cause => overtaken && cause.ofMatch
  | .miss _ _ _ _ _ overtaken _, .rangeEnd _ _ => overtaken
  | .matched _ _ _ _, .state _ _ cause => cause.ofMatch
  | .matched _ _ _ _, .rangeEnd _ _ => true
  | .state _ _ cause, .command (.written v) .accepted _ _ _ _ => v == 1 && cause.aheadOfStart
  | _, _ => false

/-- Take the oldest report of a block out of the raised reports, with those raised before it, if there is
one. -/
def splitRaised (b : Block) : List Raised → Option (List Raised × Raised × List Raised)
  | [] => none
  | r :: t =>
    if r.block = b then some ([], r, t)
    else match splitRaised b t with
      | none => none
      | some (before, x, after) => some (r :: before, x, after)

/-- The reports as REPORT_TAKEN finds them: the numbers that an accepted START waits for come when the run
controller's next report is asked for and none of it stands, and the COMMAND is raised (R138; log entry 30). -/
def State.reportsFor (b : Block) (s : State) : State :=
  if b = .run ∧ (splitRaised .run s.raised).isNone then s.bringCounts else s

/-- REPORT_TAKEN: the report writer takes the oldest report raised by a block, unless one raised before it
must reach the queue first (R165; log entry 13). -/
def execReportTaken (b : Block) (s : State) : Answer :=
  let t := s.reportsFor b
  match splitRaised b t.raised with
  | none => .next s
  | some (before, r, after) =>
    if before.any (fun e => e.record.report.mustPrecede r.record.report) then .next s
    else .next { t with raised := before ++ after, report := t.report.take r.record }

/-! ### Tasks (R167, R168, R171, R173) -/

/-- RECORD_WRITE_BEGIN (R167, R168). -/
def execRecordWriteBegin (s : State) : Answer :=
  match s.loader.installed with
  | none => .next s
  | some i =>
    .next { s with report := s.report.beginRecord i s.link.frame s.tracker.integer }.pump

/-- The begin of a refresh: the generation rises by 1, and the sixteen words are copied (R171, R172). -/
def State.beginRefresh (i : Installed) (s : State) : State :=
  let g := s.report.generation + 1
  { s with report := { s.report with
      generation := g, refreshDue := false,
      task := some { kind := .refresh, words := addressed i.statusBase (s.statusWords s.fifoCount g) } } }

/-- REFRESH_BEGIN: a due refresh begins when no task is in progress (R171, R173). -/
def execRefreshBegin (s : State) : Answer :=
  match s.loader.installed with
  | none => .next s
  | some i =>
    if s.report.refreshDue && s.report.task.isNone then .next (s.beginRefresh i).pump else .next s

/-! ### RESET (R164) -/

/-- RESET and its release: every block at its reset values; memory and the commands that wait are kept; the
first load begins at once (R164). The model's choices (log entry 4): an access on the port is dropped unmade, a
write in progress is not stored, and a processor access that waits on READY is dropped. -/
def execReset (s : State) : Answer :=
  .next ({ State.reset with mem := s.mem, pending := s.pending }.loadStart).pump

end Sys2Proof.Machine
end

