-- ==== Sys2Proof/Machine/WindRows.lean ====
section
/-! DEFINITION. The meanings of the rows that are stages of the run controller's frame event. A row has an effect
when the frame event has come to it (log entries 1 and 28). -/

namespace Sys2Proof.Machine

/-- CANCEL_ASSERT (R141, R142). -/
def execCancelAssert (s : State) : Answer :=
  if s.run.stage = .cancelAssert then .next s.runCancelAssert.pump else .next s

/-- CANCEL_RELEASE (R141). -/
def execCancelRelease (s : State) : Answer :=
  if s.run.stage = .cancelRelease then .next s.runCancelRelease.pump else .next s

/-- WIND_DROP (R148). -/
def execWindDrop (s : State) : Answer :=
  if s.run.stage = .drop then .next s.runDrop.pump else .next s

/-- WIND_CONFIRMED (R146). -/
def execWindConfirmed (s : State) : Answer :=
  if s.run.stage = .confirm then .next s.runConfirm.pump else .next s

/-- WIND_LIMIT (R147). -/
def execWindLimit (s : State) : Answer :=
  if s.run.stage = .limit then .next s.runLimit.pump else .next s

/-- HOLD_EXPIRY (R144). -/
def execHoldExpiry (s : State) : Answer :=
  if s.run.stage = .hold then .next s.runHold else .next s

end Sys2Proof.Machine
end

