-- ==== Sys2Proof/Machine/Dispatch.lean ====
section
/-! DEFINITION. The dispatcher: one arm per command. -/

namespace Sys2Proof.Machine

/-- The effect of a command on everything but the queue. -/
def exec (i : Instr) (s : State) : Host.Outcome State Fault Refusal :=
  match i with
  | .reset => Sys2Proof.Machine.execReset s
  | .scoreCommit a v => Sys2Proof.Machine.execScoreCommit a v s
  | .emptyCommit a v => Sys2Proof.Machine.execEmptyCommit a v s
  | .scoreEdit a v => Sys2Proof.Machine.execScoreEdit a v s
  | .fetchReadDone => Sys2Proof.Machine.execFetchReadDone s
  | .chestWrite a v => Sys2Proof.Machine.execChestWrite a v s
  | .chestRead a => Sys2Proof.Machine.execChestRead a s
  | .logStatusWrite a v => Sys2Proof.Machine.execLogStatusWrite a v s
  | .stopMaskWrite d v => Sys2Proof.Machine.execStopMaskWrite d v s
  | .pickupCommit k v => Sys2Proof.Machine.execPickupCommit k v s
  | .pickupReadDone => Sys2Proof.Machine.execPickupReadDone s
  | .runBlockWrite w v => Sys2Proof.Machine.execRunBlockWrite w v s
  | .commandNone => Sys2Proof.Machine.execCommandNone s
  | .start => Sys2Proof.Machine.execStart s
  | .stop => Sys2Proof.Machine.execStop s
  | .resume => Sys2Proof.Machine.execResume s
  | .commandUnknown v => Sys2Proof.Machine.execCommandUnknown v s
  | .consumerIndexWrite v => Sys2Proof.Machine.execConsumerIndexWrite v s
  | .anchorCommit v => Sys2Proof.Machine.execAnchorCommit v s
  | .otherWrite a v => Sys2Proof.Machine.execOtherWrite a v s
  | .anchorReadDone => Sys2Proof.Machine.execAnchorReadDone s
  | .portAccessDone => Sys2Proof.Machine.execPortAccessDone s
  | .chestWriteDone => Sys2Proof.Machine.execChestWriteDone s
  | .writeBackGrant => Sys2Proof.Machine.execWriteBackGrant s
  | .reportWordDone => Sys2Proof.Machine.execReportWordDone s
  | .frameStart c w o => Sys2Proof.Machine.execFrameStart c w o s
  | .repeatGapDue => Sys2Proof.Machine.execRepeatGapDue s
  | .pendingOnWrite => Sys2Proof.Machine.execPendingOnWrite s
  | .waitExpiry => Sys2Proof.Machine.execWaitExpiry s
  | .windowClose => Sys2Proof.Machine.execWindowClose s
  | .cancelAssert => Sys2Proof.Machine.execCancelAssert s
  | .cancelRelease => Sys2Proof.Machine.execCancelRelease s
  | .windConfirmed => Sys2Proof.Machine.execWindConfirmed s
  | .staleWaitClearAnswer => Sys2Proof.Machine.execStaleWaitClearAnswer s
  | .windLimit => Sys2Proof.Machine.execWindLimit s
  | .windDrop => Sys2Proof.Machine.execWindDrop s
  | .holdExpiry => Sys2Proof.Machine.execHoldExpiry s
  | .slotEvent k b => Sys2Proof.Machine.execSlotEvent k b s
  | .timeout k => Sys2Proof.Machine.execTimeout k s
  | .release => Sys2Proof.Machine.execRelease s
  | .sweepWrite => Sys2Proof.Machine.execSweepWrite s
  | .sweepEnd => Sys2Proof.Machine.execSweepEnd s
  | .reportTaken b => Sys2Proof.Machine.execReportTaken b s
  | .recordWriteBegin => Sys2Proof.Machine.execRecordWriteBegin s
  | .refreshBegin => Sys2Proof.Machine.execRefreshBegin s

end Sys2Proof.Machine
end

