-- ==== Sys2Proof/Safety.lean ====
section
/-! DEFINITION. What counts as a sound state and a safe run, in the terms the claims use. -/

namespace Sys2Proof.Machine

/-- Every sparse table of the state is in canonical form: the organ memory, the slot map, the sounding
table. -/
def State.tablesCanonical (s : State) : Bool :=
  Memory.wf s.mem && Table.wf SlotState.free s.admission.slots
    && Table.wf SoundEntry.quiet s.chest.sounding

/-- No collection holds more than its rule allows (R3, R22, R44, R98, R165), and no loss count exceeds its
limit (R168). -/
def State.withinCapacity (s : State) : Bool :=
  decide (s.admission.list.length ≤ Config.admissionCapacity)
    && decide (s.release.hold.length ≤ Config.holdCapacity)
    && decide (s.matcher.cues.length ≤ Config.cueCapacity)
    && decide (s.chest.fifo.length ≤ Config.fifoCapacity)
    && decide (s.report.queue.length ≤ Config.reportCapacity)
    && decide (s.report.lostCount ≤ Config.lostLimit)
    && decide (s.report.lostTotal ≤ Config.lostLimit)

/-- The pending write-back list holds at most one entry for a division (R54), and the list of pickup-entry
fetches at most one for a pickup (R163). -/
def State.listsDistinct (s : State) : Bool :=
  decide ((s.path.writeBacks.map (fun e => e.division)).Nodup)
    && decide ((s.loader.pickupList.map (fun e => e.pickup)).Nodup)

/-- No slot stands twice in the admission list (1.3), in the hold queue (R21) or in the cue list (R97). -/
def State.slotsDistinct (s : State) : Bool :=
  decide ((s.admission.list.map (fun e => e.slot)).Nodup)
    && decide ((s.release.hold.map (fun e => e.slot)).Nodup)
    && decide ((s.matcher.cues.map (fun e => e.slot)).Nodup)

/-- Slot n heads the admission list. -/
def State.headsList (s : State) (n : Nat) : Prop :=
  ∃ e rest, s.admission.list = e :: rest ∧ e.slot = n

/-- The state of each slot names the one collection that holds it (R2): PENDING and FETCHING the admission list,
HELD_NOTE the hold queue, HELD_CUE the cue list, and FREE none; the slot being fetched is the list's head (R6). -/
def State.slotsNamed (s : State) : Prop :=
  (∀ n, ((s.slot n = .pending ∨ s.slot n = .fetching) ↔ ∃ e ∈ s.admission.list, e.slot = n)
    ∧ (s.slot n = .heldNote ↔ ∃ e ∈ s.release.hold, e.slot = n)
    ∧ (s.slot n = .heldCue ↔ ∃ e ∈ s.matcher.cues, e.slot = n)
    ∧ (s.slot n = .fetching ↔ s.admission.fetch ≠ none ∧ s.headsList n))
  ∧ (s.admission.fetch ≠ none → s.admission.list ≠ [])

/-- No holder count exceeds 7 (R38). -/
def State.holdersLegal (s : State) : Bool :=
  s.chest.sounding.all (fun x => decide (x.2.holders ≤ Config.holderLimit))

/-- The chest write FIFO never holds more than 16 entries, with the one whose write is granted, and a granted
write that the FIFO still holds is its head's (R44, R172). -/
def State.fifoAccounted (s : State) : Bool :=
  decide (s.fifoCount ≤ Config.fifoCapacity) &&
    match s.path.port with
    | some (.chestWrite e true) =>
      s.chest.fifo.head?.any (fun x => x.address == e.address && x.stored == e.stored && x.on == e.on)
    | _ => true

/-- The hold queue and the cue list are in the orders of R21 and R97, and the next admission order exceeds
every order they hold (R13). -/
def State.collectionsOrdered (s : State) : Bool :=
  holdSorted s.release.hold && cueSorted s.matcher.cues
    && s.release.hold.all (fun e => e.order < s.admission.nextOrder)
    && s.matcher.cues.all (fun e => e.order < s.admission.nextOrder)

/-- A load that is reading: the state is LOADING, the hold queue is empty and no fetch is in progress
(R17, R34, R158). -/
def State.loadLegal (s : State) : Bool :=
  s.loader.load.isNone ||
    (s.loader.config == .loading && s.release.hold.isEmpty && s.admission.fetch.isNone)

/-- The entry's payload, if it is a TEMPO entry, lies within the installed limits (R20). -/
def HoldEntry.tempoWithin (i : Installed) (e : HoldEntry) : Bool :=
  e.kind != .tempo || (decide (i.tmin ≤ e.payload.toNat) && decide (e.payload.toNat ≤ i.tmax))

/-- Under an installed configuration the tempo lies within Tmin..Tmax, and so does the payload of every TEMPO
entry of the hold queue (R20, R117); before the first installation the part is UNCONFIGURED or a first load
is reading (R157, R164). -/
def State.tempoLegal (s : State) : Bool :=
  s.loadLegal &&
    match s.loader.installed with
    | none =>
      s.loader.config == .unconfigured || (s.loader.config == .loading && s.loader.load.isSome)
    | some i =>
      decide (i.tmin ≤ i.tmax) && decide (i.tmin ≤ s.tracker.tempo) && decide (s.tracker.tempo ≤ i.tmax)
        && s.release.hold.all (HoldEntry.tempoWithin i)

/-! ### Words of the claims -/

/-- The processor access that a command is, if it is one (R150): the address and the value of its row. -/
def accessOf : Instr → Option ProcAccess
  | .scoreCommit a v | .emptyCommit a v | .scoreEdit a v | .chestWrite a v | .logStatusWrite a v
  | .otherWrite a v => some (.write a.toNat v)
  | .chestRead a => some (.read a.toNat)
  | .stopMaskWrite d v => some (.write (26 + 3 * d.val) v)
  | .pickupCommit k v => some (.write (38 + 3 * k.val) v)
  | .runBlockWrite .stampLow v => some (.write 72 v)
  | .runBlockWrite .stampHigh v => some (.write 73 v)
  | .runBlockWrite .nominal v => some (.write 74 v)
  | .commandNone => some (.write 75 0)
  | .start => some (.write 75 1)
  | .stop => some (.write 75 2)
  | .resume => some (.write 75 3)
  | .commandUnknown v => some (.write 75 v)
  | .consumerIndexWrite v => some (.write 76 v)
  | .anchorCommit v => some (.write 77 v)
  | .reset | .fetchReadDone | .pickupReadDone | .anchorReadDone | .portAccessDone | .chestWriteDone
  | .writeBackGrant | .reportWordDone | .frameStart _ _ _ | .repeatGapDue | .pendingOnWrite
  | .waitExpiry | .windowClose | .cancelAssert | .cancelRelease | .windConfirmed
  | .staleWaitClearAnswer | .windLimit | .windDrop | .holdExpiry | .slotEvent _ _ | .timeout _
  | .release | .sweepWrite | .sweepEnd | .reportTaken _ | .recordWriteBegin | .refreshBegin => none

/-- The tracker takes the start of the frame before the cue matcher. -/
def trackerFirst : FrameOrder → Bool
  | .tmr | .trm | .rtm => true
  | .mtr | .mrt | .rmt => false

/-- Nothing of the frame before is left due (log entry 10), the first frame has begun, and no processor access
waits. -/
def State.nothingDue (s : State) : Prop :=
  s.run.stage = .done ∧ s.matcher.expiryDue = false ∧ s.fuser.overdue s.link.frame = false
    ∧ s.markDue = s ∧ s.link.begun = true ∧ s.path.waiting = none

/-- Nothing of the frame before is left due, and the samples of the next frame start bring nothing at the run
controller: CANCEL is not held, the wind does not drop, a single low sample of a CONFIRMED wind being ignored, and
neither the settle, the limit counter nor the hold timer runs (R141, R144 to R148). -/
def State.frameQuiet (windok : Bool) (s : State) : Prop :=
  s.nothingDue ∧ s.run.cancelHeld = false
    ∧ s.run.announced ≠ .winding
    ∧ (s.run.wind = .confirmed → windok = true ∨ s.run.windLast ≠ some false)
    ∧ s.run.limitRunning = false ∧ s.run.holdRunning = false

/-- The trail position that the expiry test of the next frame reads, for an expiry lag of n (R103). -/
def State.nextExpiryTrail (n : Nat) (s : State) : Nat :=
  s.tracker.trailAt (s.link.frame + 1 - BitVec.ofNat 32 n)

/-- The memory port is free and no processor access waits (R154). -/
def State.portFree (s : State) : Prop := s.path.port = none ∧ s.path.waiting = none

/-- State t is state u but for what the arbiter and the admission fetch do next, and for whether the release
engine waits: a fetch of the list's head may have begun, its read been requested, and one of the part's accesses
granted (R6, R26, R155). Everything else is u's. -/
def trafficFrame (u t : State) : Prop :=
  (∃ adm port wait, t =
      { u with admission := adm, path := { u.path with port := port }, spaceWait := wait })
    ∧ t.admission.list = u.admission.list ∧ t.admission.nextOrder = u.admission.nextOrder
    ∧ (u.admission.fetch ≠ none → t.admission.fetch = u.admission.fetch)
    ∧ ∀ n, ¬ u.headsList n → t.slot n = u.slot n

/-- State t follows from the effect u of an event: the fetch and the arbiter take what u leaves them, the
release engine waits for FIFO space or not as u's head of the hold queue and u's FIFO have it (R26), and nothing
else of u changes. -/
def sameButTraffic (u t : State) : Prop := t = u.pump ∧ trafficFrame u t ∧ t.spaceWait = u.waitsFor

/-- A report as the block raises it at this state (R165). -/
def State.reported (s : State) (b : Block) (r : Report) : Raised :=
  { block := b, record := { report := r, frame := s.link.frame, position := s.tracker.integer } }

/-- Chest t is what a MUTE request leaves of c, by the running sweep (table of R52). With none or a REVOICE running
the MUTE starts at division 0, key 0: every pending-on flag is cleared, every holder count and last-off frame is kept,
the union is emptied, and the on-writes leave the FIFO, the off-writes in their order (R47, R50); no entry belongs to
the new sweep yet (log entry 23). With a MUTE running it goes on where it stands and the union is emptied. With an OFF
running nothing changes: the model's, R52 saying that it cannot arise (log entry 32). -/
def Chest.afterMute (c t : Chest) : Prop :=
  (∀ w, c.sweep = some w → w.kind = .off → t = c)
  ∧ (∀ w, c.sweep = some w → w.kind = .mute → t = { c with union := Divisions.none })
  ∧ ((∀ w, c.sweep = some w → w.kind = .revoice) →
      t.sweep = some { kind := .mute, set := Divisions.all, division := 0, key := 0, passed := false }
      ∧ t.union = Divisions.none
      ∧ t.fifo = (c.fifo.filter (fun e => !e.on)).map (fun e => { e with sweep := false })
      ∧ (Table.wf SoundEntry.quiet c.sounding = true →
          ∀ d k, t.sound d k = { c.sound d k with pendingOn := false, due := false })
      ∧ t.divisions = c.divisions ∧ t.protectSeen = c.protectSeen)

/-- A REVOICE of the set `all` writes the keys of division d: d is in it and enabled (R51). -/
def Chest.revoices (c : Chest) (all : Divisions) (d : Division) : Prop :=
  all.mem d = true ∧ (c.division d).enabled = true

/-- Chest t is what a REVOICE request of a set of divisions leaves of c, by the running sweep (table of R52). With
none running it starts over the set, and with a REVOICE running it starts again over the union of the two sets: at key
0 of the lowest enabled division of them, or past its last key if they have none, and nothing else changes (R48, R51)
but that no FIFO entry belongs to the new sweep yet (log entry 23). With a MUTE running the set joins the pending
union, and with an OFF running the request is discarded. -/
def Chest.afterRevoice (set : Divisions) (c t : Chest) : Prop :=
  (∀ w, c.sweep = some w → w.kind = .off → t = c)
  ∧ (∀ w, c.sweep = some w → w.kind = .mute → t = { c with union := c.union.join set })
  ∧ (∀ all, (c.sweep = none ∧ all = set
        ∨ ∃ w, c.sweep = some w ∧ w.kind = .revoice ∧ all = w.set.join set) →
      t = { c with
        fifo := c.fifo.map (fun e => { e with sweep := false }), sweep := t.sweep }
      ∧ (∀ d, c.revoices all d → (∀ e, e < d → ¬ c.revoices all e) →
          t.sweep = some { kind := .revoice, set := all, division := d, key := 0, passed := false })
      ∧ ((∀ d, ¬ c.revoices all d) →
          ∃ w, t.sweep = some w ∧ w.kind = .revoice ∧ w.set = all ∧ w.passed = true))

/-- Field test 3 of R159 at anchor word n, by the layout of R177, for words of value w: the field's range, and 0 in
every bit outside the named fields. A chest base that is no multiple of 256 is seen in word 4 (log entry 24). -/
def anchorFieldLegal (w : Nat → Nat) (n : Nat) : Prop :=
  (n = 3 → 64 ≤ w n ∧ w n ≤ 2048)
  ∧ (n = 4 → w n % 256 = 0)
  ∧ (n = 8 → 16 ≤ w n ∧ w n ≤ 1024)
  ∧ (n = 11 ∨ n = 12 → 320 ≤ w n ∧ w n ≤ 4000)
  ∧ (n = 13 → w n % 32 ≤ 16 ∧ w n / 32 % 8 = 0)
  ∧ (n = 14 → 1 ≤ w n ∧ w n ≤ 255)
  ∧ (n = 15 → 1 ≤ w n % 16 ∧ w n / 16 % 16 = 0)
  ∧ (n = 16 → 1 ≤ w n ∧ w n ≤ 31)
  ∧ (n = 17 → 1 ≤ w n ∧ w n ≤ 1023)
  ∧ (n = 18 → w n ≤ 63)
  ∧ (n = 20 → w n ≤ 4095)
  ∧ (n = 21 → 1 ≤ w n)
  ∧ (n = 22 → w n ≤ 255)
  ∧ (n = 23 → w n ≤ 1)
  ∧ (∀ d, d < 4 →
    (n = 24 + 3 * d → w n / 16 % 16 = 0 ∧ w n / 8192 = 0 ∧ (w n / 256 % 32 ≤ 12 ∨ 20 ≤ w n / 256 % 32))
    ∧ (n = 25 + 3 * d →
      (w (24 + 3 * d) / 4 % 2 = 1 → w n % 64 ≤ 24 ∨ 40 ≤ w n % 64)
      ∧ (w (24 + 3 * d) / 4 % 2 = 0 → w n % 256 = 0)
      ∧ (w (24 + 3 * d) / 8 % 2 = 1 → w n / 256 % 64 ≤ 24 ∨ 40 ≤ w n / 256 % 64)
      ∧ (w (24 + 3 * d) / 8 % 2 = 0 → w n / 256 = 0)))
  ∧ (∀ k, k < 12 →
    (n = 36 + 3 * k → w n < 32768 ∧ w n / 4096 ≤ 4)
    ∧ (n = 37 + 3 * k ∨ n = 38 + 3 * k → w n < 32768 ∧ w n / 128 % 2 = 0))

/-- The eight words of a log record by the layout of R178: word 0 holds the kind's code and the subject, words 1, 2
and 7 the details A, B and C, and words 3 to 6 the frame count and the position of the record. -/
def logRecord (code subject : Nat) (a b c : Word) (r : Record) : List Word :=
  [BitVec.ofNat 16 (code + 32 * min subject 2047), a, b,
   BitVec.ofNat 16 r.frame.toNat, BitVec.ofNat 16 (r.frame.toNat / 65536),
   BitVec.ofNat 16 r.position, BitVec.ofNat 16 (r.position / 65536), c]

/-- Report e, raised earlier by another block, reaches the queue before report l: the RELEASE before what its dispatch
raises at another block (R31), the overtaken MISS and the MATCH before what the tracker raises for the match (R108),
and the STATE of an accepted START, or of a STOP or CANCEL since, before the COMMAND of the START (R138). That the
pairs go by the kinds and causes alone is the model's choice (log entry 13). -/
def Report.comesBefore (e l : Report) : Prop :=
  ((∃ slot kind d key late, e = .release slot kind d key late)
    ∧ ((∃ d key coupled, l = .holderOverflow d key coupled) ∨ (∃ d key moved, l = .unmatchedOff d key moved)
      ∨ ∃ slot new old, l = .tempoSet slot new old))
  ∨ (((∃ slot x strength ks, e = .matched slot x strength ks)
      ∨ ∃ slot stamp w wait anchor counted, e = .miss slot stamp w wait anchor true counted)
    ∧ ((∃ old tempo, l = .rangeEnd old tempo)
      ∨ ∃ old new cause, l = .state old new cause
        ∧ (cause = .capture ∨ cause = .waitEnd ∨ cause = .waitReached ∨ cause = .rangeEnd)))
  ∨ ((∃ old new cause, e = .state old new cause ∧ (cause = .start ∨ cause = .stop ∨ cause = .cancel))
    ∧ ∃ reason tracker h c, l = .command (.written 1) .accepted reason tracker h c)

/-- A run of n steps that each answer a next state. -/
def safeRun : Nat → State → Prop
  | 0, _ => True
  | n + 1, s => ∃ t, step s = .next t ∧ safeRun n t

end Sys2Proof.Machine
end

