-- ==== Sys2Proof/Certificates/Slice0/Obligations.lean ====
section
/-! DEFINITION. The statements for the provers. `sameButTraffic u t`, `State.portFree`, `State.reported` and
`accessOf` are words of Sys2Proof/Safety.lean. A statement of the form "there is t with exec c s = next t and
..." says that the command completes and what it leaves; `sameButTraffic u t` fixes every part of t but the
access the arbiter puts on the port next and the fetch it belongs to. -/

open Sys2Proof Sys2Proof.Machine

/-! ### The step -/

/-- A step takes the front command and is exec of it on the queue's rest. The model's choice (log entry 2): on an
empty queue the block idles. -/
def Obligations.StepTakesFrontCommand : Prop :=
  (∀ (c : Instr) (rest : List Instr) (s : State),
    step { s with pending := c :: rest } = exec c { s with pending := rest })
  ∧ ∀ s : State, s.pending = [] → step s = .next s

/-- Every command answers a next state in every state, and leaves the queue of commands as it is: "no access
is refused or faulted" (R150), and no rule stops the part. -/
def Obligations.EveryCommandCompletes : Prop :=
  ∀ (c : Instr) (s : State), ∃ t, exec c s = .next t ∧ t.pending = s.pending

/-! ### RESET -/

/-- RESET from any state: every block at its reset values, memory kept, the first load begun with the read of
word 0 on the port (R164, R158). The equality also holds what no rule gives. That memory and the queue are kept is the
model's reading, and that an access on the port and a waiting processor access are dropped unmade is its choice (log
entry 4). So are: the word on PD 0, the hold timer 0, the marks and the ready flag clear, the wait timer not stopped,
the division settings zero and the first admission order 0 (log entry 5); no WINDOK sample (log entry 25); no first
frame begun (log entry 9); no answer on its way (log entry 12), no expiry due (log entry 10), no frame event left (log
entry 28), and the numbers of a START dropped (log entry 30). The tracker state last announced to the cue matcher, the
run controller and the anchor loader is IDLE, deduced from the tracker's own (R134; log entry 5). -/
def Obligations.ResetBeginsFirstLoad : Prop :=
  ∀ s : State, exec .reset s = .next
    { State.reset with
      pending := s.pending, mem := s.mem,
      loader := { Loader.reset with config := .loading, load := some [] },
      path := { MemPath.reset with port := some (.anchorRead 0 false) } }

/-- The values the spec gives for RESET (R19, R35, R58, R85, R96, R112, R134, R149, R164, R175): among them no wait for
FIFO space (R35), and present inactive in every LST slot (R85). R19 gives no slots, the part being UNCONFIGURED; the
model's slot map then reads FREE at every number (log entry 5). -/
def Obligations.ResetValues : Prop :=
  (State.reset.admission.list = [] ∧ State.reset.admission.fetch = none
      ∧ ∀ n, State.reset.slot n = .free)
    ∧ (State.reset.release.hold = [] ∧ State.reset.release.starved = false
        ∧ State.reset.spaceWait = none)
    ∧ (∀ d k, State.reset.chest.sound d k
        = { holders := 0, pendingOn := false, due := false, lastOff := none })
    ∧ (State.reset.chest.fifo = [] ∧ State.reset.chest.sweep = none
        ∧ State.reset.chest.union = Divisions.none ∧ State.reset.chest.protectSeen = false)
    ∧ (∀ k : PickupNo, State.reset.link.pickups[k].state = .disabled
        ∧ State.reset.link.pickups[k].entry =
          { enabled := false, weight := 0, delay := 0, count := 0, value1 := 0, value2 := 0, value3 := 0,
            value4 := 0 }
        ∧ State.reset.link.pickups[k].lst.present = false
        ∧ State.reset.link.pickups[k].parityRun = 0 ∧ State.reset.link.pickups[k].stuckRun = 0
        ∧ State.reset.link.pickups[k].goodRun = 0
        ∧ State.reset.link.pickups[k].lastLiveness = none
        ∧ State.reset.link.pickups[k].lastCode = none
        ∧ State.reset.link.pickups[k].candidate = none
        ∧ State.reset.link.pickups[k].handshake = none ∧ State.reset.link.pickups[k].quiet = 0)
    ∧ State.reset.link.frame = 0
    ∧ (State.reset.fuser.window = none ∧ State.reset.fuser.running = false)
    ∧ (State.reset.matcher.cues = [] ∧ State.reset.matcher.capture = 0
        ∧ State.reset.matcher.miss = 0 ∧ State.reset.matcher.timer = 0
        ∧ State.reset.matcher.lag = none)
    ∧ (State.reset.tracker.state = .idle ∧ State.reset.tracker.position = 0
        ∧ State.reset.tracker.tempo = 1920 ∧ State.reset.tracker.lag = 0
        ∧ State.reset.tracker.remainder = 0 ∧ State.reset.tracker.trail = List.replicate 512 0
        ∧ State.reset.tracker.returnState = none ∧ State.reset.tracker.resume = false
        ∧ State.reset.tracker.waitStamp = none)
    ∧ (State.reset.run.stampLow = 0 ∧ State.reset.run.stampHigh = 0 ∧ State.reset.run.nominal = 0
        ∧ State.reset.run.cancelPrev = none ∧ State.reset.run.cancelHeld = false
        ∧ State.reset.run.windReq = false ∧ State.reset.run.wind = .unrequested
        ∧ State.reset.run.settle = 0 ∧ State.reset.run.limitRunning = false
        ∧ State.reset.run.holdRunning = false)
    ∧ (State.reset.path.writeBacks = [] ∧ State.reset.path.yieldCount = 0
        ∧ State.reset.path.ready = true)
    ∧ (State.reset.loader.config = .unconfigured ∧ State.reset.loader.installed = none
        ∧ State.reset.loader.pickupList = [])
    ∧ (State.reset.report.queue = [] ∧ State.reset.report.producer = 0
        ∧ State.reset.report.consumer = 0 ∧ State.reset.report.lostCount = 0
        ∧ State.reset.report.lostTotal = 0 ∧ State.reset.report.generation = 0
        ∧ State.reset.report.attn = false ∧ State.reset.report.task = none)

/-! ### Invariants -/

/-- The invariants of the statements below hold at RESET. -/
def Obligations.InvariantsHoldAtReset : Prop :=
  State.reset.tablesCanonical = true ∧ State.reset.withinCapacity = true
    ∧ State.reset.listsDistinct = true ∧ State.reset.collectionsOrdered = true
    ∧ State.reset.tempoLegal = true
    ∧ State.reset.slotsDistinct = true ∧ State.reset.slotsNamed
    ∧ State.reset.holdersLegal = true ∧ State.reset.fifoAccounted = true

/-- Every step keeps the canonical form of the organ memory, the slot map and the sounding table. The form is the
model's own representation of the three (DESIGN CHOICE, log entry 3): equal contents are equal data. -/
def Obligations.StepKeepsTablesCanonical : Prop :=
  ∀ s t : State, s.tablesCanonical = true → step s = .next t → t.tablesCanonical = true

/-- Every step keeps every collection within its capacity (R3, R22, R44, R98, R165), the loss counts within
their limit (R168), at most one pending write-back a division (R54), and at most one pickup-entry fetch a
pickup (R163). It keeps each slot in the one collection that its slot state names, and there once (R2, R6, R21,
R97), no holder count above 7 (R38), and the chest write FIFO at 16 entries or fewer, the one whose write is
granted counted until it completes, and at the head unless it was removed (R44, R172; that a removed entry's
write counts so is read from R172, log entry 20). -/
def Obligations.StepKeepsCapacities : Prop :=
  ∀ s t : State, step s = .next t →
    (s.withinCapacity = true → t.withinCapacity = true)
    ∧ (s.listsDistinct = true → t.listsDistinct = true)
    ∧ (s.tablesCanonical = true → s.slotsDistinct = true → s.slotsNamed →
      t.slotsDistinct = true ∧ t.slotsNamed)
    ∧ (s.holdersLegal = true → t.holdersLegal = true)
    ∧ (s.fifoAccounted = true → t.fifoAccounted = true)

/-- Every step keeps the hold queue in the order of R21 and the cue list in the order of R97. -/
def Obligations.StepKeepsCollectionsOrdered : Prop :=
  ∀ s t : State, s.collectionsOrdered = true → step s = .next t → t.collectionsOrdered = true

/-- Every step keeps the tempo within the installed limits (R117). -/
def Obligations.StepKeepsTempoLegal : Prop :=
  ∀ s t : State, s.tempoLegal = true → step s = .next t → t.tempoLegal = true

/-! ### Processor accesses -/

/-- Every row that is a processor access, arriving while an access of the part holds the port, waits: READY
goes inactive and the yield count is 1 (R154, R155). A write that is dropped does not wait. -/
def Obligations.AccessWaitsBehindThePart : Prop :=
  ∀ (c : Instr) (a : ProcAccess) (s : State),
    accessOf c = some a → s.path.port ≠ none → s.path.processorBusy = false →
    (∀ n v, a = .write n v → s.dropped n = none) →
    exec c s = .next { s with path := { s.path with waiting := some a, ready := false, yieldCount := 1 } }

/-- A write into the log area or the status block is dropped in every state, and a CHEST_WRITE into the chest
area while the tracker is not IDLE and while a sweep runs: memory is not written, PROTECT_DROP is raised and
the protect-seen flag is set, whatever access of the part holds the port (R56, R152). -/
def Obligations.ProtectedWritesDropped : Prop :=
  ∀ (a : Addr) (v : Word) (s : State), s.path.processorBusy = false →
    (∀ r : DropRegion,
      (regionOf s.loader.installed a.toNat = .log ∧ r = .log
        ∨ regionOf s.loader.installed a.toNat = .status ∧ r = .status) →
      exec (.logStatusWrite a v) s = .next
        { s with
          chest := { s.chest with protectSeen := true },
          raised := s.raised ++ [s.reported .memoryPath (.protectDrop a.toNat v r)] })
    ∧ (regionOf s.loader.installed a.toNat = .chest →
      (s.tracker.state ≠ .idle ∨ s.chest.sweep ≠ none) →
      exec (.chestWrite a v) s = .next
        { s with
          chest := { s.chest with protectSeen := true },
          raised := s.raised ++ [s.reported .chest (.protectDrop a.toNat v .chest)] })

/-- Through the polarity of its division (R57): a CHEST_WRITE in IDLE with no sweep running stores its value, and
a CHEST_READ returns the stored word, each inverted in every bit for a chest word of a division of reverse
polarity. Neither changes anything else (R56, R150). -/
def Obligations.ChestAccessesThroughPolarity : Prop :=
  ∀ (a : Addr) (v : Word) (s : State), s.portFree →
    (∀ i, s.loader.installed = some i → regionOf (some i) a.toNat = .chest →
      s.tracker.state = .idle → s.chest.sweep = none →
      ∃ t, exec (.chestWrite a v) s = .next t ∧
        sameButTraffic
          { s with
            mem := s.mem.write a.toNat
              (if (s.chest.division (chestDivision i a.toNat)).reverse then ~~~v else v) } t)
    ∧ ∃ t, exec (.chestRead a) s = .next t ∧
      sameButTraffic
        { s with
          path := { s.path with
            readData :=
              match s.loader.installed with
              | none => s.mem.read a.toNat
              | some i =>
                if regionOf (some i) a.toNat = .chest
                    ∧ (s.chest.division (chestDivision i a.toNat)).reverse = true then
                  ~~~(s.mem.read a.toNat)
                else s.mem.read a.toNat } } t

/-- An OTHER_WRITE of region Other, of a region or setting word, or of a division's held word is stored and
does nothing else (R150, R151). One of word 36 + 3k or 37 + 3k is stored; in CONFIGURED and DEFERRED it
restarts the fetch of pickup k, if that is the one being fetched, from word 36 + 3k (R163). -/
def Obligations.OtherWriteTaken : Prop :=
  ∀ (a : Addr) (v : Word) (s : State), s.portFree →
    ((regionOf s.loader.installed a.toNat = .other ∨ a.toNat < 24
        ∨ (24 ≤ a.toNat ∧ a.toNat < 36 ∧ a.toNat % 3 ≠ 2)) →
      ∃ t, exec (.otherWrite a v) s = .next t ∧
        sameButTraffic { s with mem := s.mem.write a.toNat v } t)
    ∧ (∀ k : PickupNo, (a.toNat = 36 + 3 * k.val ∨ a.toNat = 37 + 3 * k.val) →
      ∃ t, exec (.otherWrite a v) s = .next t ∧
        sameButTraffic
          { s with
            mem := s.mem.write a.toNat v,
            loader := { s.loader with pickupGot :=
              if (s.loader.config = .configured ∨ s.loader.config = .deferred)
                  ∧ s.loader.pickupList.head?.map (fun e => e.pickup) = some k then []
              else s.loader.pickupGot } } t)

/-- A RUN_BLOCK_WRITE is stored, and the run controller's copy of the word takes the value; the write is
marked while LOADING (R135). -/
def Obligations.RunBlockWriteCopied : Prop :=
  ∀ (v : Word) (s : State), s.portFree →
    (∃ t, exec (.runBlockWrite .stampLow v) s = .next t ∧
      sameButTraffic
        { s with
          mem := s.mem.write 72 v,
          run := { s.run with
            stampLow := v, markLow := s.run.markLow || s.loader.config == .loading } } t)
    ∧ (∃ t, exec (.runBlockWrite .stampHigh v) s = .next t ∧
      sameButTraffic
        { s with
          mem := s.mem.write 73 v,
          run := { s.run with
            stampHigh := v, markHigh := s.run.markHigh || s.loader.config == .loading } } t)
    ∧ (∃ t, exec (.runBlockWrite .nominal v) s = .next t ∧
      sameButTraffic
        { s with
          mem := s.mem.write 74 v,
          run := { s.run with
            nominal := v, markNominal := s.run.markNominal || s.loader.config == .loading } } t)

/-- A CONSUMER_INDEX_WRITE is stored; with a log installed, a value below N becomes the consumer index, and
ATTN shows whether it differs from P; a value of N or more is ignored (R169, R170). -/
def Obligations.ConsumerIndexWriteTaken : Prop :=
  ∀ (v : Word) (s : State), s.portFree →
    ∃ t, exec (.consumerIndexWrite v) s = .next t ∧
      sameButTraffic
        { s with
          mem := s.mem.write 76 v,
          report :=
            match s.loader.installed with
            | none => s.report
            | some i =>
              if v.toNat < i.logCount then
                { s.report with consumer := v.toNat, attn := s.report.producer != v.toNat }
              else s.report } t

/-- An ANCHOR_COMMIT begins or restarts a load in UNCONFIGURED, in LOADING, and in CONFIGURED with the tracker
IDLE: every collection is emptied, and the load has read no word (R157, R158). In CONFIGURED with the tracker
not IDLE it enters DEFERRED with an ANCHOR report, and a status refresh falls due; in DEFERRED it is stored
and does nothing more (R157, R171). That the admission order, which starts afresh (R19), starts at 0 is the model's
choice (log entry 5). -/
def Obligations.AnchorCommitTaken : Prop :=
  ∀ (v : Word) (s : State), s.portFree →
    ((s.loader.config = .unconfigured ∨ s.loader.config = .loading
        ∨ s.loader.config = .configured ∧ s.loader.announced = .idle) →
      ∃ t, exec (.anchorCommit v) s = .next t ∧
        sameButTraffic
          { s with
            mem := s.mem.write 77 v,
            path := { s.path with writeBacks := [] },
            loader := { s.loader with
              config := .loading, load := some [], heldMasks := Vector.replicate 4 none,
              noted := Vector.replicate 12 none, pickupList := [], pickupGot := [] },
            admission :=
              { slots := [], list := [], fetch := none, nextOrder := 0,
                request := s.admission.request.map (fun r => { r with discard := true }) },
            release := { hold := [], starved := false },
            chest := { s.chest with fifo := [], sweep := none, union := Divisions.none },
            fuser := { s.fuser with window := none },
            matcher := { s.matcher with cues := [], capture := 0, miss := 0, timer := 0 },
            tracker := { s.tracker with waitStamp := none },
            run := { s.run with markLow := false, markHigh := false, markNominal := false },
            report := { s.report with refreshDue := s.report.refreshDue ||
              (s.loader.config != .loading && s.loader.installed.isSome) } } t)
    ∧ (s.loader.config = .configured → s.loader.announced ≠ .idle → s.loader.installed ≠ none →
      ∃ t, exec (.anchorCommit v) s = .next t ∧
        sameButTraffic
          { s with
            mem := s.mem.write 77 v,
            loader := { s.loader with config := .deferred },
            report := { s.report with refreshDue := true },
            raised := s.raised ++ [s.reported .anchorLoader (.anchor .deferred)] } t)
    ∧ (s.loader.config = .deferred →
      ∃ t, exec (.anchorCommit v) s = .next t ∧
        sameButTraffic { s with mem := s.mem.write 77 v } t)

/-- A STOP_MASK_WRITE of division d is stored and cancels the division's pending write-back. In CONFIGURED and
DEFERRED the mask changes at once, and in a running state an enabled division is revoiced; in LOADING the
value is held; in UNCONFIGURED it is stored only (R53, R55, R158). -/
def Obligations.StopMaskWriteTaken : Prop :=
  ∀ (d : Division) (v : Word) (s : State), s.portFree →
    ∃ t, exec (.stopMaskWrite d v) s = .next t ∧
      sameButTraffic
        { s with
          mem := s.mem.write (26 + 3 * d.val) v,
          path := { s.path with
            writeBacks := s.path.writeBacks.filter (fun e => e.division != d) },
          loader :=
            if s.loader.config = .loading then
              { s.loader with heldMasks := s.loader.heldMasks.set d (some v) }
            else s.loader,
          chest :=
            if s.loader.config = .configured ∨ s.loader.config = .deferred then
              if (s.chest.division d).enabled = true ∧ s.tracker.state.running = true then
                (s.chest.setMask d v).requestSweep .revoice (Divisions.single d)
              else s.chest.setMask d v
            else s.chest } t

/-- A PICKUP_COMMIT of pickup k is stored. In CONFIGURED and DEFERRED it lists the pickup with the value, or
replaces the value it carries, and restarts its fetch if it is the one being fetched; in LOADING it is noted
once the load has read the word (R158, R163). -/
def Obligations.PickupCommitListed : Prop :=
  ∀ (k : PickupNo) (v : Word) (s : State), s.portFree →
    ∃ t, exec (.pickupCommit k v) s = .next t ∧
      sameButTraffic
        { s with
          mem := s.mem.write (38 + 3 * k.val) v,
          loader :=
            match s.loader.config with
            | .unconfigured => s.loader
            | .loading =>
              if s.loader.load.all (fun ws => decide (38 + 3 * k.val < ws.length)) = true then
                { s.loader with noted := s.loader.noted.set k (some v) }
              else s.loader
            | .configured | .deferred =>
              { s.loader with
                pickupList :=
                  if s.loader.pickupList.any (fun e => e.pickup == k) then
                    s.loader.pickupList.map
                      (fun e => if e.pickup = k then { pickup := k, carried := v } else e)
                  else s.loader.pickupList ++ [{ pickup := k, carried := v }],
                pickupGot :=
                  if s.loader.pickupList.head?.map (fun e => e.pickup) = some k then []
                  else s.loader.pickupGot } } t

/-! ### Commands of the run block -/

/-- A COMMAND_NONE is stored and has no other effect in any state. A COMMAND_UNKNOWN, a value of 4 or more, is
stored; with a configuration installed it raises one COMMAND report with result UNKNOWN, the value and the
tracker state, and has no other effect (R136). -/
def Obligations.NoneAndUnknownCommands : Prop :=
  ∀ (v : Word) (s : State), s.portFree →
    (∃ t, exec .commandNone s = .next t ∧ sameButTraffic { s with mem := s.mem.write 75 0 } t)
    ∧ (4 ≤ v.toNat → s.loader.installed = none →
      ∃ t, exec (.commandUnknown v) s = .next t ∧ sameButTraffic { s with mem := s.mem.write 75 v } t)
    ∧ (4 ≤ v.toNat → s.loader.installed ≠ none → s.run.stage = .done →
      ∃ t, exec (.commandUnknown v) s = .next t ∧
        sameButTraffic
          { s with
            mem := s.mem.write 75 v,
            raised := s.raised ++
              [s.reported .run (.command (.written v) .unknown none s.run.announced 0 0)] } t)

/-- A START that passes every test of R137 is accepted: position, tempo, lag credit, remainder and trail are
set, WINDING is entered, a REVOICE of all divisions is requested, the protect-seen flag is cleared, WINDREQ is
high, the limit counter runs from 0, the hold timer is stopped, and the entries and cues below the start stamp
are dropped and their slots FREE; the two numbers are on their way to the run controller, which raises the
COMMAND report when it holds them (R33, R111, R129, R138, R144). That the numbers of a START before, if they
are still on their way, come first is the model's choice (log entry 30). -/
def Obligations.StartAccepted : Prop :=
  ∀ (i : Installed) (stamp : Nat) (late : List Raised) (s : State), s.portFree → s.loader.installed = some i →
    s.run.stage = .done → s.tracker.state = .idle → s.run.announced = .idle →
    s.loader.config = .configured → s.run.cancelHeld = false →
    stamp = s.run.stampHigh.toNat * 65536 + s.run.stampLow.toNat → stamp ≤ 2147483647 →
    i.tmin ≤ s.run.nominal.toNat → s.run.nominal.toNat ≤ i.tmax →
    late = (match s.run.startCounts with
      | none => []
      | some (h, c) => [s.reported .run (.command (.written 1) .accepted none .idle h c)]) →
    ∃ t, exec .start s = .next t ∧
      sameButTraffic
        { s with
          mem := s.mem.write 75 1,
          tracker := { s.tracker with
            state := .winding, position := stamp * 65536, tempo := s.run.nominal.toNat, lag := 0,
            remainder := 0, resume := false, trail := List.replicate 512 stamp,
            waitStamp := leastWait (s.matcher.cues.filter (fun e => stamp ≤ e.stamp)) },
          run := { s.run with
            announced := .winding, windReq := true, limit := 0, limitRunning := true,
            holdRunning := false, readyReported := false,
            wind := if s.run.windReq then s.run.wind else .unconfirmed,
            startCounts := some ((s.release.hold.filter (fun e => e.stamp < stamp)).length,
              (s.matcher.cues.filter (fun e => e.stamp < stamp)).length) },
          chest := { s.chest.requestSweep .revoice Divisions.all with protectSeen := false },
          release := { s.release with hold := s.release.hold.filter (fun e => stamp ≤ e.stamp) },
          matcher := { s.matcher with
            cues := s.matcher.cues.filter (fun e => stamp ≤ e.stamp), capture := 0, miss := 0,
            timer := 0, announced := .winding, expiryDue := false },
          fuser := { window := none, running := false },
          loader := { s.loader with announced := .winding },
          report := { s.report with refreshDue := true },
          admission := { s.admission with slots :=
            (((s.release.hold.filter (fun e => e.stamp < stamp)).map (fun e => e.slot)
              ++ (s.matcher.cues.filter (fun e => e.stamp < stamp)).map (fun e => e.slot)).foldl
                (fun m n => Table.set .free m n .free) s.admission.slots) },
          raised := s.raised ++ late ++
            [{ block := .tracker,
               record := { report := .state .idle .winding .start, frame := s.link.frame,
                           position := stamp } }] } t

/-- A START that fails a test of R137, a STOP in IDLE and in STOPPING, and a RESUME outside HALTED or with
CANCEL held have no effect beyond their COMMAND report; the reason of a refused START is the first test that
fails, in the order STATE, CONFIGURATION, CANCEL_HELD, STAMP, TEMPO (R137, R139, R140, R143). -/
def Obligations.CommandsRefused : Prop :=
  ∀ (i : Installed) (s : State), s.portFree → s.loader.installed = some i → s.run.stage = .done →
    (∀ reason : CommandReason,
      (if s.run.announced ≠ .idle then some .state
       else if s.loader.config ≠ .configured then some .configuration
       else if s.run.cancelHeld then some .cancelHeld
       else if 2147483647 < s.run.stampHigh.toNat * 65536 + s.run.stampLow.toNat then some .stamp
       else if s.run.nominal.toNat < i.tmin ∨ i.tmax < s.run.nominal.toNat then some .tempo
       else none) = some reason →
      ∃ t, exec .start s = .next t ∧
        sameButTraffic
          { s with
            mem := s.mem.write 75 1,
            raised := s.raised ++
              [s.reported .run (.command (.written 1) .refused (some reason) s.run.announced 0 0)] } t)
    ∧ ((s.run.announced = .idle ∨ s.run.announced = .stopping) →
      ∃ t, exec .stop s = .next t ∧
        sameButTraffic
          { s with
            mem := s.mem.write 75 2,
            raised := s.raised ++
              [s.reported .run (.command (.written 2) .refused (some .state) s.run.announced 0 0)] } t)
    ∧ (s.run.announced ≠ .halted →
      ∃ t, exec .resume s = .next t ∧
        sameButTraffic
          { s with
            mem := s.mem.write 75 3,
            raised := s.raised ++
              [s.reported .run (.command (.written 3) .refused (some .state) s.run.announced 0 0)] } t)
    ∧ (s.run.announced = .halted → s.run.cancelHeld = true →
      ∃ t, exec .resume s = .next t ∧
        sameButTraffic
          { s with
            mem := s.mem.write 75 3,
            raised := s.raised ++
              [s.reported .run (.command (.written 3) .refused (some .cancelHeld) .halted 0 0)] } t)

/-- A STOP outside IDLE and STOPPING is accepted: COMMAND, and STOPPING with its STATE report (that COMMAND is
raised first is the model's choice, log entry 14). The teardown
empties the admission list, the hold queue and the cue list, sets every slot FREE, abandons the fusion window
and starts the OFF sweep, which removes the on-writes from the FIFO and sets every holder count to 0; the
limit counter stops, a settle ends, WINDREQ stays high; position, tempo and lag credit are kept (R9, R18, R34,
R47, R49, R94, R112, R133, R139). That the admission order, which starts afresh (R19), starts at 0 is the model's
choice (log entry 5). -/
def Obligations.StopTearsDown : Prop :=
  ∀ s : State, s.portFree → s.loader.installed ≠ none → s.run.stage = .done →
    s.run.announced = s.tracker.state → s.tracker.state ≠ .idle → s.tracker.state ≠ .stopping →
    ∃ t, exec .stop s = .next t ∧
      sameButTraffic
        { s with
          mem := s.mem.write 75 2,
          tracker := { s.tracker with
            state := .stopping, returnState := none, resume := false, awaitingClear := false,
            waitStamp := none },
          admission :=
            { slots := [], list := [], fetch := none, nextOrder := 0,
              request := s.admission.request.map (fun r => { r with discard := true }) },
          release := { hold := [], starved := false },
          matcher := { s.matcher with
            cues := [], capture := 0, miss := 0, timer := 0, announced := .stopping,
            expiryDue := false },
          fuser := { window := none, running := false },
          chest := s.chest.requestSweep .off Divisions.all,
          run := { s.run with
            announced := .stopping, windReq := true, limitRunning := false, settle := 0,
            holdRunning := false,
            wind := if s.run.windReq = true ∧ s.run.wind ≠ .settling then s.run.wind
              else .unconfirmed },
          loader := { s.loader with announced := .stopping },
          report := { s.report with refreshDue := true },
          raised := s.raised ++
            [s.reported .run (.command (.written 2) .accepted none s.tracker.state 0 0),
             s.reported .tracker (.state s.tracker.state .stopping .stop)] } t
      ∧ (∀ n, t.slot n = .free)
      ∧ t.chest.sweep = some { kind := .off, set := Divisions.all, division := 0, key := 0,
                               passed := false }
      ∧ t.chest.fifo.map (fun e => (e.address, e.stored, e.on))
          = (s.chest.fifo.filter (fun e => !e.on)).map (fun e => (e.address, e.stored, e.on))
      ∧ (∀ e ∈ t.chest.sounding, e.2.holders = 0 ∧ e.2.pendingOn = false)
      ∧ t.chest.divisions = s.chest.divisions

/-- A RESUME in HALTED with CANCEL not held is accepted: the resume flag is set and WINDING is entered with
the position, the queue, the cues and the counts kept; the limit counter runs from 0 (R129, R140). That COMMAND
is raised before the STATE report is the model's choice (log entry 14). -/
def Obligations.ResumeEntersWinding : Prop :=
  ∀ s : State, s.portFree → s.loader.installed ≠ none → s.run.stage = .done →
    s.run.announced = .halted → s.tracker.state = .halted → s.run.cancelHeld = false →
    ∃ t, exec .resume s = .next t ∧
      sameButTraffic
        { s with
          mem := s.mem.write 75 3,
          tracker := { s.tracker with state := .winding, resume := true },
          run := { s.run with
            announced := .winding, windReq := true, limit := 0, limitRunning := true,
            holdRunning := false, readyReported := false,
            wind := if s.run.windReq then s.run.wind else .unconfirmed },
          matcher := { s.matcher with announced := .winding, expiryDue := false },
          fuser := { window := none, running := false },
          loader := { s.loader with announced := .winding },
          report := { s.report with refreshDue := true },
          raised := s.raised ++
            [s.reported .run (.command (.written 3) .accepted none .halted 0 0),
             s.reported .tracker (.state .halted .winding .resume)] } t

/-! ### The score area -/

/-- A SCORE_COMMIT, kind not EMPTY, while the configuration governs, by the slot's state. FREE: the slot is
appended to the admission list with the commit word and leaves FREE, or the commit is lost to a full list with
ADMIT_OVERRUN (R3). PENDING: the slot's entry takes the new commit word in its place (R4). FETCHING: so too, and
the fetch restarts, its words discarded (R8). HELD_NOTE and HELD_CUE: the entry is withdrawn first, with
WITHDRAWN, then the slot is listed as from FREE, or the commit is lost to a full list with ADMIT_OVERRUN and the
slot stays FREE (R3, R15); a hold queue left empty in a running state is starved (R32). A cue leaves with the wait
stamp that remains handed to the tracker, which goes on as it was in every state but WAITING (R99, R100); in WAITING
on a wait stamp that so ends or goes beyond the position, the wait timer stops, and the tracker goes on in its return
state with cause WAIT_RELEASED (R110, R127). In LOADING the commit is ignored (R17). The word is stored in each case
(R1). That STARVED and the STATE report are raised after WITHDRAWN, and ADMIT_OVERRUN after them, is the model's choice
(log entry 14), and so is that a withdrawal hands on a wait stamp whose change still waits for the answer of R130 (log
entry 12). -/
def Obligations.ScoreCommitTaken : Prop :=
  ∀ (a : Addr) (v : Word) (i : Installed) (n : Nat) (s : State), s.portFree →
    s.loader.installed = some i → regionOf (some i) a.toNat = .score →
    a.toNat = i.scoreBase + 4 * n + 3 → commitKind v ≠ .empty →
    (s.loader.config = .loading →
      ∃ t, exec (.scoreCommit a v) s = .next t ∧
        sameButTraffic { s with mem := s.mem.write a.toNat v } t)
    ∧ ((s.loader.config = .configured ∨ s.loader.config = .deferred) →
      (s.slot n = .free → s.admission.list.length < 32 →
        ∃ t, exec (.scoreCommit a v) s = .next t
          ∧ t.admission.list = s.admission.list ++ [{ slot := n, commit := v }]
          ∧ (t.slot n = .pending ∨ t.slot n = .fetching)
          ∧ sameButTraffic
              { s with
                mem := s.mem.write a.toNat v,
                admission := { s.admission with
                  list := s.admission.list ++ [{ slot := n, commit := v }],
                  slots := Table.set .free s.admission.slots n .pending } } t)
      ∧ (s.slot n = .free → 32 ≤ s.admission.list.length →
        ∃ t, exec (.scoreCommit a v) s = .next t ∧
          sameButTraffic
            { s with
              mem := s.mem.write a.toNat v,
              raised := s.raised ++ [s.reported .admission (.admitOverrun n)] } t)
      ∧ (s.slot n = .pending →
        ∃ t, exec (.scoreCommit a v) s = .next t ∧
          sameButTraffic
            { s with
              mem := s.mem.write a.toNat v,
              admission := { s.admission with
                list := s.admission.list.map
                  (fun e => if e.slot = n then { e with commit := v } else e) } } t)
      ∧ (s.slot n = .fetching →
        ∃ t, exec (.scoreCommit a v) s = .next t ∧
          sameButTraffic
            { s with
              mem := s.mem.write a.toNat v,
              admission := { s.admission with
                list := s.admission.list.map
                  (fun e => if e.slot = n then { e with commit := v } else e),
                fetch := some [],
                request := s.admission.request.map (fun r => { r with discard := true }) } } t)
      ∧ (∀ (e : HoldEntry) (left : List HoldEntry), s.slot n = .heldNote →
        s.release.hold.find? (fun x => x.slot == n) = some e →
        left = s.release.hold.filter (fun x => x.slot != n) →
        ∃ t, exec (.scoreCommit a v) s = .next t ∧
          sameButTraffic
            { s with
              mem := s.mem.write a.toNat v,
              admission :=
                if s.admission.list.length < 32 then
                  { s.admission with
                    list := s.admission.list ++ [{ slot := n, commit := v }],
                    slots := Table.set .free (Table.set .free s.admission.slots n .free) n .pending }
                else { s.admission with slots := Table.set .free s.admission.slots n .free },
              release :=
                { hold := left,
                  starved := s.release.starved || (left.isEmpty && s.tracker.state.running) },
              raised := s.raised ++ s.reported .admission (.withdrawn n e.kind.toScore) ::
                ((if left.isEmpty && s.tracker.state.running && !s.release.starved then
                    [s.reported .release (.starved .withdrawn (some n))] else [])
                  ++ if s.admission.list.length < 32 then []
                     else [s.reported .admission (.admitOverrun n)]) } t)
      ∧ (∀ (e : CueEntry) (left : List CueEntry), s.slot n = .heldCue →
        s.matcher.cues.find? (fun x => x.slot == n) = some e →
        left = s.matcher.cues.filter (fun x => x.slot != n) →
        (leastWait left = s.tracker.waitStamp ∨
          s.tracker.state ≠ .waiting ∧ s.matcher.announced ≠ .waiting
            ∧ (s.tracker.state.advancing = true →
              ∀ w, leastWait left = some w → s.tracker.position ≠ w * 65536)) →
        ∃ t, exec (.scoreCommit a v) s = .next t ∧
          sameButTraffic
            { s with
              mem := s.mem.write a.toNat v,
              admission :=
                if s.admission.list.length < 32 then
                  { s.admission with
                    list := s.admission.list ++ [{ slot := n, commit := v }],
                    slots := Table.set .free (Table.set .free s.admission.slots n .free) n .pending }
                else { s.admission with slots := Table.set .free s.admission.slots n .free },
              matcher := { s.matcher with cues := left },
              tracker := { s.tracker with waitStamp := leastWait left },
              raised := s.raised ++ s.reported .admission (.withdrawn n .cue) ::
                if s.admission.list.length < 32 then []
                else [s.reported .admission (.admitOverrun n)] } t)
      ∧ (∀ (e : CueEntry) (left : List CueEntry) (back : TrackerState), s.slot n = .heldCue →
        s.matcher.cues.find? (fun x => x.slot == n) = some e →
        left = s.matcher.cues.filter (fun x => x.slot != n) → s.tracker.state = .waiting →
        s.matcher.announced = .waiting → leastWait left ≠ s.tracker.waitStamp →
        (∀ w, leastWait left = some w → s.tracker.position < w * 65536) →
        s.tracker.returnState = some back →
        (back = .leading ∨ back = .following ∨ back = .coasting) →
        ∃ t, exec (.scoreCommit a v) s = .next t ∧
          sameButTraffic
            { s with
              mem := s.mem.write a.toNat v,
              admission :=
                if s.admission.list.length < 32 then
                  { s.admission with
                    list := s.admission.list ++ [{ slot := n, commit := v }],
                    slots := Table.set .free (Table.set .free s.admission.slots n .free) n .pending }
                else { s.admission with slots := Table.set .free s.admission.slots n .free },
              matcher := { s.matcher with
                cues := left, timerStopped := true, expiryDue := false, announced := back },
              tracker := { s.tracker with
                state := back, returnState := none, waitStamp := leastWait left,
                resume := s.tracker.resume && back != .leading,
                awaitingClear := s.tracker.awaitingClear && back != .leading },
              fuser := { s.fuser with running := true },
              run := { s.run with announced := back },
              loader := { s.loader with announced := back },
              report := { s.report with refreshDue := true },
              raised := s.raised ++
                [s.reported .admission (.withdrawn n .cue),
                 s.reported .tracker (.state .waiting back .waitReleased)]
                ++ if s.admission.list.length < 32 then []
                   else [s.reported .admission (.admitOverrun n)] } t))

/-- An EMPTY_COMMIT and a SCORE_EDIT of a slot that is not held. EMPTY_COMMIT: no effect on a FREE slot; a PENDING
slot leaves the list; a FETCHING slot leaves the list and its fetch is abandoned (R5, R9). SCORE_EDIT: no effect
on a FREE or PENDING slot (R4, R15), and a FETCHING slot's fetch restarts (R8). While the configuration is
LOADING neither has an effect (R17). The word is stored in each case (R1). -/
def Obligations.EditOrEmptyCommitOfUnheldSlot : Prop :=
  ∀ (a b : Addr) (v w : Word) (i : Installed) (n k : Nat) (s : State), s.portFree →
    s.loader.installed = some i →
    regionOf (some i) a.toNat = .score → a.toNat = i.scoreBase + 4 * n + 3 → commitKind v = .empty →
    regionOf (some i) b.toNat = .score → b.toNat = i.scoreBase + 4 * n + k → k < 3 →
    (s.loader.config = .loading ∨ s.slot n = .free →
      (∃ t, exec (.emptyCommit a v) s = .next t ∧
        sameButTraffic { s with mem := s.mem.write a.toNat v } t)
      ∧ ∃ t, exec (.scoreEdit b w) s = .next t ∧
        sameButTraffic { s with mem := s.mem.write b.toNat w } t)
    ∧ ((s.loader.config = .configured ∨ s.loader.config = .deferred) → s.slot n = .pending →
      (∃ t, exec (.emptyCommit a v) s = .next t ∧
        sameButTraffic
          { s with
            mem := s.mem.write a.toNat v,
            admission := { s.admission with
              list := s.admission.list.filter (fun e => e.slot != n),
              slots := Table.set .free s.admission.slots n .free } } t)
      ∧ ∃ t, exec (.scoreEdit b w) s = .next t ∧
        sameButTraffic { s with mem := s.mem.write b.toNat w } t)
    ∧ ((s.loader.config = .configured ∨ s.loader.config = .deferred) → s.slot n = .fetching →
      (∃ t, exec (.emptyCommit a v) s = .next t ∧
        sameButTraffic
          { s with
            mem := s.mem.write a.toNat v,
            admission := { s.admission with
              list := s.admission.list.filter (fun e => e.slot != n),
              slots := Table.set .free s.admission.slots n .free,
              fetch := none,
              request := s.admission.request.map (fun r => { r with discard := true }) } } t)
      ∧ ∃ t, exec (.scoreEdit b w) s = .next t ∧
        sameButTraffic
          { s with
            mem := s.mem.write b.toNat w,
            admission := { s.admission with
              fetch := some [],
              request := s.admission.request.map (fun r => { r with discard := true }) } } t)

/-- An EMPTY_COMMIT and a SCORE_EDIT of a held slot, while the configuration governs: a held note leaves the hold
queue with WITHDRAWN, and with starvation if it leaves the queue empty in a running state (R5, R15, R23, R32);
a held cue leaves the cue list with WITHDRAWN, and the tracker takes the wait stamp that remains and goes on as it
was, in every state but WAITING, and in WAITING where the stamp is unchanged (R15, R99, R100); the WAIT cue on which
the tracker stands in WAITING, with a wait stamp beyond the position or none remaining, stops the wait timer, and the
tracker goes on in its return state with cause WAIT_RELEASED (R110, R127). The slot becomes FREE, and the word is
stored; that the slot map is the model's canonical table and each slot in its one collection is a premise where it is
read back (log entry 3; R2). That STARVED and the STATE report are raised after WITHDRAWN is the model's choice (log
entry 14), and so is that a withdrawal hands on a wait stamp whose change still waits for the answer of R130 (log entry
12). -/
def Obligations.EditOrEmptyCommitWithdraws : Prop :=
  ∀ (a : Addr) (v : Word) (i : Installed) (n k : Nat) (c : Instr) (s : State), s.portFree →
    s.loader.installed = some i → regionOf (some i) a.toNat = .score →
    a.toNat = i.scoreBase + 4 * n + k →
    (c = .emptyCommit a v ∧ k = 3 ∧ commitKind v = .empty ∨ c = .scoreEdit a v ∧ k < 3) →
    (s.loader.config = .configured ∨ s.loader.config = .deferred) →
    (∀ e, s.slot n = .heldNote → s.release.hold.find? (fun x => x.slot == n) = some e →
      ∃ t, exec c s = .next t ∧
        sameButTraffic
          { s with
            mem := s.mem.write a.toNat v,
            admission := { s.admission with slots := Table.set .free s.admission.slots n .free },
            release :=
              { hold := s.release.hold.filter (fun x => x.slot != n),
                starved := s.release.starved ||
                  ((s.release.hold.filter (fun x => x.slot != n)).isEmpty
                    && s.tracker.state.running) },
            raised := s.raised ++
              s.reported .admission (.withdrawn n e.kind.toScore) ::
                (if (s.release.hold.filter (fun x => x.slot != n)).isEmpty
                    && s.tracker.state.running && !s.release.starved then
                  [s.reported .release (.starved .withdrawn (some n))]
                else []) } t)
    ∧ (∀ e, s.slot n = .heldCue → s.matcher.cues.find? (fun x => x.slot == n) = some e →
      (leastWait (s.matcher.cues.filter (fun x => x.slot != n)) = s.tracker.waitStamp
        ∨ s.tracker.state ≠ .waiting ∧ s.matcher.announced ≠ .waiting
          ∧ (s.tracker.state.advancing = true →
            ∀ w, leastWait (s.matcher.cues.filter (fun x => x.slot != n)) = some w →
              s.tracker.position ≠ w * 65536)) →
      ∃ t, exec c s = .next t ∧
        sameButTraffic
          { s with
            mem := s.mem.write a.toNat v,
            admission := { s.admission with slots := Table.set .free s.admission.slots n .free },
            matcher := { s.matcher with cues := s.matcher.cues.filter (fun x => x.slot != n) },
            tracker := { s.tracker with
              waitStamp := leastWait (s.matcher.cues.filter (fun x => x.slot != n)) },
            raised := s.raised ++ [s.reported .admission (.withdrawn n .cue)] } t)
    ∧ (∀ (e : CueEntry) (left : List CueEntry) (back : TrackerState), s.slot n = .heldCue →
      s.matcher.cues.find? (fun x => x.slot == n) = some e →
      left = s.matcher.cues.filter (fun x => x.slot != n) → s.tracker.state = .waiting →
      s.matcher.announced = .waiting → leastWait left ≠ s.tracker.waitStamp →
      (∀ w, leastWait left = some w → s.tracker.position < w * 65536) →
      s.tracker.returnState = some back →
      (back = .leading ∨ back = .following ∨ back = .coasting) →
      ∃ t, exec c s = .next t
        ∧ (s.tablesCanonical = true → s.slotsNamed → t.slot n = .free)
        ∧ sameButTraffic
          { s with
            mem := s.mem.write a.toNat v,
            admission := { s.admission with slots := Table.set .free s.admission.slots n .free },
            matcher := { s.matcher with
              cues := left, timerStopped := true, expiryDue := false, announced := back },
            tracker := { s.tracker with
              state := back, returnState := none, waitStamp := leastWait left,
              resume := s.tracker.resume && back != .leading,
              awaitingClear := s.tracker.awaitingClear && back != .leading },
            fuser := { s.fuser with running := true },
            run := { s.run with announced := back },
            loader := { s.loader with announced := back },
            report := { s.report with refreshDue := true },
            raised := s.raised ++
              [s.reported .admission (.withdrawn n .cue),
               s.reported .tracker (.state .waiting back .waitReleased)] } t)

/-! ### Completions on the memory port -/

/-- A FETCH_READ_DONE keeps the word read as w0 or w1 of the record (R6), and an ANCHOR_READ_DONE of one of
words 0 to 76 keeps the word (R158); the word of an abandoned read is discarded (R8, R9, R158). -/
def Obligations.ReadWordsKeptOrDiscarded : Prop :=
  ∀ (a : Nat) (s : State), s.path.waiting = none →
    (∀ (i : Installed) (ws : List Word) (e : AdmissionEntry) (rest : List AdmissionEntry),
      s.path.port = some (.fetchRead a false) → s.loader.installed = some i →
      s.admission.fetch = some ws → ws.length < 2 → s.admission.list = e :: rest →
      ∃ t, exec .fetchReadDone s = .next t ∧
        sameButTraffic
          { s with
            path := { s.path with port := none },
            admission := { s.admission with fetch := some (ws ++ [s.mem.read a]) } } t)
    ∧ (s.path.port = some (.fetchRead a true) →
      ∃ t, exec .fetchReadDone s = .next t ∧
        sameButTraffic { s with path := { s.path with port := none } } t)
    ∧ (∀ ws, s.path.port = some (.anchorRead a false) → s.loader.load = some ws → ws.length < 77 →
      ∃ t, exec .anchorReadDone s = .next t ∧
        sameButTraffic
          { s with
            path := { s.path with port := none },
            loader := { s.loader with load := some (ws ++ [s.mem.read a]) } } t)
    ∧ (s.path.port = some (.anchorRead a true) →
      ∃ t, exec .anchorReadDone s = .next t ∧
        sameButTraffic { s with path := { s.path with port := none } } t)

/-- The check value is the sum of w0, w1, w2 and the commit word with its check field taken as 0, modulo 31, and
lies from 0 to 30; the check code passes when the commit word's check field equals it, so a field of 31 never
passes; the commit word is the one the admission-list entry carries (R10). Behind it come the tests KIND, PAYLOAD and
RANGE of R11, in that order, on the fields of R176; a record that fails none is admissible. A record that fails one
leaves the list, becomes FREE and raises FORM_ERROR with the reason (R7, R12). -/
def Obligations.CheckCodeAtTheFetchEnd : Prop :=
  (∀ r : FetchedRecord,
    r.checkValue = (r.w0.toNat + r.w1.toNat + r.w2.toNat
        + (r.commit.toNat - r.commit.toNat % 32)) % 31
      ∧ r.checkValue ≤ 30)
  ∧ (∀ (r : FetchedRecord) (tmin tmax kind division key payload stamp : Nat) (badPayload badRange : Prop),
      r.commit.toNat % 32 = r.checkValue → kind = r.commit.toNat / 8192 →
      division = r.commit.toNat / 2048 % 4 → key = r.commit.toNat / 32 % 64 → payload = r.w2.toNat →
      stamp = r.w1.toNat * 65536 + r.w0.toNat → kind ≠ 0 →
      badPayload = ((kind = 1 ∨ kind = 2) ∧ payload ≠ 0
        ∨ kind = 4 ∧ (payload < tmin ∨ tmax < payload)
        ∨ kind = 6 ∧ (payload % 256 = 0 ∨ 1024 ≤ payload)) →
      badRange = (2147483647 < stamp
        ∨ (kind = 1 ∨ kind = 2) ∧ (division = 3 ∧ 31 < key ∨ division ≠ 3 ∧ 60 < key)
        ∨ kind = 3 ∧ key ≠ 0
        ∨ (kind = 4 ∨ kind = 5 ∨ kind = 6) ∧ (division ≠ 0 ∨ key ≠ 0)) →
      (kind = 7 → r.formError tmin tmax = some .kind)
      ∧ (kind ≠ 7 → badPayload → r.formError tmin tmax = some .payload)
      ∧ (kind ≠ 7 → ¬ badPayload → badRange → r.formError tmin tmax = some .range)
      ∧ (kind ≠ 7 → ¬ badPayload → ¬ badRange → r.formError tmin tmax = none))
  ∧ ∀ (a : Nat) (i : Installed) (w0 w1 : Word) (e : AdmissionEntry) (rest : List AdmissionEntry)
      (s : State), s.path.waiting = none → s.path.port = some (.fetchRead a false) →
      s.loader.installed = some i → s.admission.fetch = some [w0, w1] →
      s.admission.list = e :: rest →
      (e.commit.toNat % 32
        ≠ (FetchedRecord.mk w0 w1 (s.mem.read a) e.commit).checkValue
        ↔ (FetchedRecord.mk w0 w1 (s.mem.read a) e.commit).formError i.tmin i.tmax = some .check)
      ∧ (e.commit.toNat % 32 = 31 →
        (FetchedRecord.mk w0 w1 (s.mem.read a) e.commit).formError i.tmin i.tmax = some .check)
      ∧ (∀ reason,
        (FetchedRecord.mk w0 w1 (s.mem.read a) e.commit).formError i.tmin i.tmax = some reason →
        ∃ t, exec .fetchReadDone s = .next t ∧
          sameButTraffic
            { s with
              path := { s.path with port := none },
              admission := { s.admission with
                list := rest, fetch := none,
                slots := Table.set .free s.admission.slots e.slot .free },
              raised := s.raised ++ [s.reported .admission (.formError e.slot reason)] } t)

/-- At the end of a fetch an admissible record is placed unless it is late: a note, registration, tempo or mark
record takes its place in the hold queue, its slot becomes HELD_NOTE and the starved flag is cleared, or it is
refused by a queue of 384 entries with QUEUE_FULL; a cue takes its place in the cue list and its slot becomes
HELD_CUE, with the tracker taking the wait stamp that a WAIT cue makes, or it is refused by a list of 64 entries with
CUE_FULL; a WAIT cue that makes the wait stamp the position, in LEADING, FOLLOWING or COASTING, brings WAITING with
cause WAIT_REACHED (R100, R125). A late record is discarded with LATE_DISCARD: in a running state a NOTE_ON whose stamp
plus LateTolerance, a cue without WAIT whose stamp plus W, and a WAIT cue whose stamp lies below the position; no other
kind is late (R7, R13, R14, R22, R97, R98). That a cue placed hands on a wait stamp whose change still waits for the
answer of R130 is the model's choice (log entry 12). -/
def Obligations.AdmissibleRecordPlaced : Prop :=
  ∀ (a : Nat) (i : Installed) (w0 w1 : Word) (e : AdmissionEntry) (rest : List AdmissionEntry)
    (r : FetchedRecord) (s : State), s.path.waiting = none →
    s.path.port = some (.fetchRead a false) → s.loader.installed = some i →
    s.admission.fetch = some [w0, w1] → s.admission.list = e :: rest →
    r = { w0 := w0, w1 := w1, w2 := s.mem.read a, commit := e.commit } →
    r.formError i.tmin i.tmax = none →
    (∀ k, s.tooLate i r = false → (commitKind e.commit).toHold = some k →
      s.release.hold.length < 384 →
      ∃ t, exec .fetchReadDone s = .next t ∧
        sameButTraffic
          { s with
            path := { s.path with port := none },
            admission := { s.admission with
              list := rest, fetch := none, nextOrder := s.admission.nextOrder + 1,
              slots := Table.set .free s.admission.slots e.slot .heldNote },
            release :=
              { hold := holdInsert (r.holdEntry e.slot s.admission.nextOrder k) s.release.hold,
                starved := false } } t)
    ∧ (∀ k, s.tooLate i r = false → (commitKind e.commit).toHold = some k →
      384 ≤ s.release.hold.length →
      ∃ t, exec .fetchReadDone s = .next t ∧
        sameButTraffic
          { s with
            path := { s.path with port := none },
            admission := { s.admission with
              list := rest, fetch := none, nextOrder := s.admission.nextOrder + 1,
              slots := Table.set .free s.admission.slots e.slot .free },
            raised := s.raised ++ [s.reported .admission (.queueFull e.slot)] } t)
    ∧ (∀ cues, s.tooLate i r = false → commitKind e.commit = .cue → s.matcher.cues.length < 64 →
      cues = cueInsert (r.cueEntry e.slot s.admission.nextOrder) s.matcher.cues →
      (leastWait cues = s.tracker.waitStamp ∨
        s.tracker.state ≠ .waiting ∧ s.matcher.announced ≠ .waiting
          ∧ (s.tracker.state.advancing = true →
            ∀ w, leastWait cues = some w → s.tracker.position ≠ w * 65536)) →
      ∃ t, exec .fetchReadDone s = .next t ∧
        sameButTraffic
          { s with
            path := { s.path with port := none },
            admission := { s.admission with
              list := rest, fetch := none, nextOrder := s.admission.nextOrder + 1,
              slots := Table.set .free s.admission.slots e.slot .heldCue },
            release := { s.release with starved := false },
            matcher := { s.matcher with cues := cues },
            tracker := { s.tracker with waitStamp := leastWait cues } } t)
    ∧ (∀ cues, s.tooLate i r = false → commitKind e.commit = .cue → s.matcher.cues.length < 64 →
      cues = cueInsert (r.cueEntry e.slot s.admission.nextOrder) s.matcher.cues →
      leastWait cues = some r.stamp → s.tracker.waitStamp ≠ some r.stamp →
      s.tracker.position = r.stamp * 65536 → s.tracker.state.advancing = true →
      s.matcher.announced = s.tracker.state →
      ∃ t, exec .fetchReadDone s = .next t ∧
        sameButTraffic
          { s with
            path := { s.path with port := none },
            admission := { s.admission with
              list := rest, fetch := none, nextOrder := s.admission.nextOrder + 1,
              slots := Table.set .free s.admission.slots e.slot .heldCue },
            release := { s.release with starved := false },
            matcher := { s.matcher with
              cues := cues, timer := 0, timerStopped := false, expiryDue := false,
              announced := .waiting },
            tracker := { s.tracker with
              state := .waiting, returnState := some s.tracker.state, lag := 0,
              waitStamp := some r.stamp },
            fuser := { s.fuser with running := true },
            run := { s.run with announced := .waiting },
            loader := { s.loader with announced := .waiting },
            report := { s.report with refreshDue := true },
            raised := s.raised ++
              [s.reported .tracker (.state s.tracker.state .waiting .waitReached)] } t)
    ∧ (s.tooLate i r = false → commitKind e.commit = .cue → 64 ≤ s.matcher.cues.length →
      ∃ t, exec .fetchReadDone s = .next t ∧
        sameButTraffic
          { s with
            path := { s.path with port := none },
            admission := { s.admission with
              list := rest, fetch := none, nextOrder := s.admission.nextOrder + 1,
              slots := Table.set .free s.admission.slots e.slot .free },
            raised := s.raised ++ [s.reported .admission (.cueFull e.slot)] } t)
    ∧ (s.tooLate i r = true →
      ∃ t, exec .fetchReadDone s = .next t ∧
        sameButTraffic
          { s with
            path := { s.path with port := none },
            admission := { s.admission with
              list := rest, fetch := none,
              slots := Table.set .free s.admission.slots e.slot .free },
            raised := s.raised ++
              [s.reported .admission (.lateDiscard e.slot (commitKind e.commit))] } t)
    ∧ (commitKind e.commit = .noteOn →
      (s.tooLate i r = true ↔ s.tracker.state.running = true
        ∧ (w1.toNat * 65536 + w0.toNat + i.lateTolerance) * 65536 < s.tracker.position))
    ∧ (commitKind e.commit = .cue →
      (s.tooLate i r = true ↔ s.tracker.state.running = true
        ∧ (w1.toNat * 65536 + w0.toNat
            + if r.w2.toNat / 256 % 2 = 1 then 0 else r.w2.toNat % 256) * 65536 < s.tracker.position))
    ∧ (commitKind e.commit ≠ .noteOn → commitKind e.commit ≠ .cue → s.tooLate i r = false)

/-- The read of word 77 ends an invalid load: from no configuration the state is UNCONFIGURED again without a
report; under a previous configuration the state is CONFIGURED with that configuration kept and an ANCHOR report
of outcome INVALID, the stop-mask values held become mask changes, the pickups of the commits noted are listed
for their fetches, and a tracker left in STOPPING with no OFF sweep running gets one (R161). A valid anchor is
installed: the state stays LOADING while the clearing OFF sweep runs on the new map, the position is 0 and the
tempo 1920 within the new limits, the run block copies without a mark take the values read, the reports raised
before are taken under the previous log, the log starts afresh with the ANCHOR record first, which counts the
records abandoned, and a refresh is due (R84, R102, R133, R135, R160, R174). The model's readings: every report
raised and not yet taken, the COMMAND of a START whose numbers are on their way among them, is taken in the
event of the installation (log entries 18 and 30), and the ANCHOR record carries the position 0 that the event
installs (log entry 19). The 78 words are judged by the five tests in order, SIGNATURE, CHECK with the sum, RANGE with
the first word that holds an illegal field, LIMITS and REGION (R159; that a chest base is noted at word 4 is log entry
24), and what a valid block installs is read by the layout of R177: the region map and settings, the divisions with the
stop-mask values held in place of those read (R158, R160), and the pickups in the states of their entries (R84). -/
def Obligations.LoadJudgedAtWord77 : Prop :=
  (∀ (ws : List Word) (w : Nat → Nat) (sum : Nat) (regions : List (Nat × Nat)) (legal : Prop),
    (∀ n, w n = (ws.getD n 0).toNat) → sum = (ws.map (fun x => x.toNat)).sum % 65536 →
    regions = [(w 1 + 65536 * w 2, 4 * w 3), (w 4 + 65536 * w 5, 256), (w 6 + 65536 * w 7, 8 * w 8),
      (w 9 + 65536 * w 10, 16)] →
    legal = ((∀ x ∈ regions, 78 ≤ x.1 ∧ x.1 + x.2 ≤ 262144)
      ∧ regions.Pairwise (fun x y => x.1 + x.2 ≤ y.1 ∨ y.1 + y.2 ≤ x.1)) →
    (w 0 ≠ 0x7A31 → anchorError ws = some .signature)
    ∧ (w 0 = 0x7A31 → sum ≠ 0 → anchorError ws = some (.check sum))
    ∧ (w 0 = 0x7A31 → sum = 0 →
      (∀ n, n < 78 → ¬ anchorFieldLegal w n → (∀ m, m < n → anchorFieldLegal w m) →
        anchorError ws = some (.range n))
      ∧ ((∀ n, n < 78 → anchorFieldLegal w n) →
        (w 12 < w 11 → anchorError ws = some .limits)
        ∧ (w 11 ≤ w 12 → ¬ legal → anchorError ws = some .region)
        ∧ (w 11 ≤ w 12 → legal → anchorError ws = none)))
    ∧ parseInstalled ws =
        { scoreBase := w 1 + 65536 * w 2, slotCount := w 3, chestBase := w 4 + 65536 * w 5,
          logBase := w 6 + 65536 * w 7, logCount := w 8, statusBase := w 9 + 65536 * w 10,
          tmin := w 11, tmax := w 12, phaseGain := w 13 % 32, rateGain := w 13 / 256,
          maxTempoStep := w 14 % 256, lossLimit := w 15 % 16, lateTolerance := w 15 / 256,
          mergeSpan := w 16 % 32, fusionThreshold := w 17 % 1024, repeatGap := w 18 % 64,
          waitLimit := w 19, windSettle := w 20 % 4096, windLimit := w 21, windHold := w 22 % 256,
          releaseHistory := w 23 % 2 == 1 })
  ∧ (∀ (ws : List Word) (w : Nat → Nat) (held : Vector (Option Word) 4) (d : Division)
      (signed : Nat → Nat → Int) (a b : Nat),
    (∀ n, w n = (ws.getD n 0).toNat) → (∀ m x, signed m x = if x < m then (x : Int) else x - 2 * m) →
    a = w (24 + 3 * d.val) → b = w (25 + 3 * d.val) →
    (installedDivisions ws held)[d] =
      { enabled := a % 2 == 1, reverse := a / 2 % 2 == 1, transpose := signed 16 (a / 256 % 32),
        couplerA := if a / 4 % 2 = 1 then
            some { target := Fin.ofNat 4 (b / 64 % 4), offset := signed 32 (b % 64) } else none,
        couplerB := if a / 8 % 2 = 1 then
            some { target := Fin.ofNat 4 (b / 16384), offset := signed 32 (b / 256 % 64) } else none,
        stopMask := match held[d] with
          | none => ws.getD (26 + 3 * d.val) 0
          | some v => v })
  ∧ (∀ (ws : List Word) (w : Nat → Nat) (old : Vector Pickup 12) (k : PickupNo) (p : Pickup) (a b c : Nat),
    (∀ n, w n = (ws.getD n 0).toNat) → p = (installedPickups ws old)[k] →
    a = w (36 + 3 * k.val) → b = w (37 + 3 * k.val) → c = w (38 + 3 * k.val) →
    p.entry = { enabled := a % 2 == 1, weight := a / 2 % 8, delay := a / 16 % 256, count := a / 4096 % 8,
                value1 := b % 128, value2 := b / 256 % 128, value3 := c % 128, value4 := c / 256 % 128 }
    ∧ p.parityRun = 0 ∧ p.stuckRun = 0 ∧ p.goodRun = 0 ∧ p.lastLiveness = none ∧ p.lastCode = none
    ∧ p.candidate = none ∧ p.quiet = (old[k]).quiet
    ∧ (p.entry.enabled = false → p.state = .disabled ∧ p.handshake = none)
    ∧ (p.entry.enabled = true → p.entry.count = 0 → p.state = .listening ∧ p.handshake = none)
    ∧ (p.entry.enabled = true → p.entry.count ≠ 0 → p.state = .configuring
      ∧ p.handshake = some
          { phase := if p.quiet = 2 then .awaiting else .leadIn, index := 1, active := 0, inactive := 0,
            ackedOnce := false, frames := 0, timeoutDue := false })) ∧
  ∀ (a : Nat) (ws : List Word) (numbers : List Raised) (s : State), s.path.waiting = none →
    s.path.port = some (.anchorRead a false) → s.loader.load = some ws → ws.length = 77 →
    numbers = (match s.loader.installed, s.run.startCounts with
      | some _, some (h, c) => [s.reported .run (.command (.written 1) .accepted none .idle h c)]
      | _, _ => []) →
    (∀ reason, anchorError (ws ++ [s.mem.read a]) = some reason → s.loader.installed = none →
      ∃ t, exec .anchorReadDone s = .next t ∧
        sameButTraffic
          { s with
            path := { s.path with port := none },
            loader := { s.loader with
              config := .unconfigured, load := none, heldMasks := Vector.replicate 4 none,
              noted := Vector.replicate 12 none, pickupList := [], pickupGot := [] } } t)
    ∧ (∀ (reason : AnchorReason) (chest : Chest), anchorError (ws ++ [s.mem.read a]) = some reason →
      s.loader.installed ≠ none → s.loader.config = .loading → s.tracker.state.running = false →
      chest = { s.chest with
        divisions := Vector.ofFn (fun d : Division =>
          match s.loader.heldMasks[d] with
          | none => s.chest.divisions[d]
          | some v => { s.chest.divisions[d] with stopMask := v }) } →
      ∃ t, exec .anchorReadDone s = .next t ∧
        sameButTraffic
          { s with
            path := { s.path with port := none },
            loader := { s.loader with
              config := .configured, load := none, heldMasks := Vector.replicate 4 none,
              noted := Vector.replicate 12 none, pickupGot := [],
              pickupList := (List.finRange 12).filterMap (fun k : PickupNo =>
                (s.loader.noted[k]).map (fun v => { pickup := k, carried := v })) },
            chest :=
              if s.tracker.state = .stopping ∧ (∀ w, s.chest.sweep = some w → w.kind ≠ .off) then
                chest.requestSweep .off Divisions.all
              else chest,
            report := { s.report with refreshDue := true },
            raised := s.raised ++ [s.reported .anchorLoader (.anchor (.invalid reason))] } t)
    ∧ (∀ i, anchorError (ws ++ [s.mem.read a]) = none → s.loader.config = .loading →
      i = parseInstalled (ws ++ [s.mem.read a]) →
      ∃ t, exec .anchorReadDone s = .next t
        ∧ t.chest.sweep = some { kind := .off, set := Divisions.all, division := 0, key := 0,
                                 passed := false }
        ∧ sameButTraffic
          { s with
            path := { s.path with port := none },
            loader := { s.loader with
              installed := some i, load := none, heldMasks := Vector.replicate 4 none },
            chest := Chest.requestSweep .off Divisions.all
              { s.chest with
                divisions := installedDivisions (ws ++ [s.mem.read a]) s.loader.heldMasks,
                protectSeen := false },
            link := { s.link with
              pickups := installedPickups (ws ++ [s.mem.read a]) s.link.pickups },
            matcher := { s.matcher with
              lag := some (expiryLag
                (Link.largestDelay
                  { s.link with
                    pickups := installedPickups (ws ++ [s.mem.read a]) s.link.pickups })
                i.mergeSpan) },
            tracker := { s.tracker with
              position := 0, tempo := min i.tmax (max i.tmin 1920), lag := 0, remainder := 0,
              trail := List.replicate 512 0, returnState := none, resume := false,
              awaitingClear := false },
            run := { s.run with
              stampLow := if s.run.markLow then s.run.stampLow else anchorWord ws 72,
              stampHigh := if s.run.markHigh then s.run.stampHigh else anchorWord ws 73,
              nominal := if s.run.markNominal then s.run.nominal else anchorWord ws 74,
              startCounts := none },
            raised := [],
            report := { s.report with
              task := none, producer := 0, consumer := 0, lostCount := 0, lostTotal := 0,
              attn := false, refreshDue := true,
              queue :=
                [{ report := .anchor (.loaded i.slotCount i.logCount
                    ((s.report.takeAll (s.raised ++ numbers)).lostCount
                      + (s.report.takeAll (s.raised ++ numbers)).queue.length
                      + if (s.report.task.map (fun k => k.kind)) = some .record then 1 else 0)),
                   frame := s.link.frame, position := 0 }] } } t)

/-- A PICKUP_READ_DONE keeps the first word of the fetch at the head of the list; the second delivers the
entry, and the pickup leaves the list: a value count of 5 to 7 is refused with a PICKUP report of reason
BAD_ENTRY and unchanged states. An accepted entry replaces the settings, by the state of the pickup (R83). One that
disables takes a CONFIGURING, LISTENING or FAULT pickup into DISABLED, its health values cleared, and leaves a
DISABLED or SILENT one as it is. One that enables takes a DISABLED or SILENT pickup, its health values cleared, and a
CONFIGURING or LISTENING one, its health values kept, into LISTENING with no value to send, and into CONFIGURING with
a message begun otherwise, in LEAD-IN or, with the quiet count at 2, in AWAITING re-arm with value 1 in its LST slot;
it leaves a FAULT pickup in FAULT (R63, R74). Every change is reported with reason COMMIT (R70). The expiry lag is
recomputed (R102, R163). -/
def Obligations.PickupReadTaken : Prop :=
  ∀ (a : Nat) (e : PickupFetch) (rest : List PickupFetch) (s : State), s.path.waiting = none →
    s.path.port = some (.pickupRead a false) → s.loader.pickupList = e :: rest →
    (s.loader.pickupGot = [] →
      ∃ t, exec .pickupReadDone s = .next t ∧
        sameButTraffic
          { s with
            path := { s.path with port := none },
            loader := { s.loader with pickupGot := [s.mem.read a] } } t)
    ∧ (∀ (i : Installed) (w0 : Word), s.loader.installed = some i → s.loader.pickupGot = [w0] →
      4 < w0.toNat / 4096 % 8 →
      ∃ t, exec .pickupReadDone s = .next t ∧
        sameButTraffic
          { s with
            path := { s.path with port := none },
            loader := { s.loader with pickupList := rest, pickupGot := [] },
            matcher := { s.matcher with
              lag := some (expiryLag s.link.largestDelay i.mergeSpan) },
            raised := s.raised ++
              [s.reported .link (.pickup e.pickup s.link.pickups[e.pickup].state
                s.link.pickups[e.pickup].state .badEntry)] } t)
    ∧ (∀ (i : Installed) (w0 : Word) (p cleared q : Pickup) (entry : PickupEntry) (bare : LstSlot)
        (listens begins : Pickup → Pickup) (reported : Bool) (l : Link),
      s.loader.installed = some i → s.loader.pickupGot = [w0] → w0.toNat / 4096 % 8 ≤ 4 →
      p = s.link.pickups[e.pickup] → entry = parsePickup w0 (s.mem.read a) e.carried →
      bare = { present := false, value := 0 } →
      cleared = { p with
        entry := entry, parityRun := 0, stuckRun := 0, goodRun := 0, lastLiveness := none,
        lastCode := none, candidate := none } →
      (∀ x, listens x = { x with state := .listening, handshake := none, lst := bare }) →
      (∀ x, begins x = { x with
        state := .configuring, candidate := none,
        handshake := some
          { phase := if p.quiet = 2 then .awaiting else .leadIn, index := 1, active := 0, inactive := 0,
            ackedOnce := false, frames := 0, timeoutDue := false },
        lst := if p.quiet = 2 then { present := true, value := entry.value1 } else bare }) →
      (q, reported) =
        (match p.state, decide (w0.toNat % 2 = 1) with
          | .disabled, false => ({ p with entry := entry, lst := bare }, false)
          | .silent, false => ({ p with entry := entry, lst := bare }, false)
          | .configuring, false =>
            ({ cleared with state := .disabled, handshake := none, lst := bare }, true)
          | .listening, false =>
            ({ cleared with state := .disabled, handshake := none, lst := bare }, true)
          | .fault, false => ({ cleared with state := .disabled, handshake := none, lst := bare }, true)
          | .disabled, true =>
            (if w0.toNat / 4096 % 8 = 0 then listens cleared else begins cleared, true)
          | .silent, true =>
            (if w0.toNat / 4096 % 8 = 0 then listens cleared else begins cleared, true)
          | .configuring, true =>
            (if w0.toNat / 4096 % 8 = 0 then listens { p with entry := entry }
             else begins { p with entry := entry }, true)
          | .listening, true =>
            (if w0.toNat / 4096 % 8 = 0 then listens { p with entry := entry }
             else begins { p with entry := entry }, true)
          | .fault, true => ({ p with entry := entry, lst := bare }, false)) →
      l = { s.link with pickups := s.link.pickups.set e.pickup q } →
      ∃ t, exec .pickupReadDone s = .next t ∧
        sameButTraffic
          { s with
            path := { s.path with port := none },
            loader := { s.loader with pickupList := rest, pickupGot := [] },
            link := l,
            matcher := { s.matcher with lag := some (expiryLag l.largestDelay i.mergeSpan) },
            raised := s.raised ++
              if reported then [s.reported .link (.pickup e.pickup p.state q.state .commit)] else [] } t)

/-- A CHEST_WRITE_DONE puts the FIFO's head into memory, and the entry leaves the FIFO (R44); a write whose
entry a sweep or a load has removed completes all the same, and the FIFO is as it was (R47; that the entry left
the FIFO at its removal, and counts in the occupancy until this completion, is the model's reading, log entry
20). -/
def Obligations.ChestWriteDoneStores : Prop :=
  ∀ (e : FifoEntry) (s : State), s.path.waiting = none →
    (s.path.port = some (.chestWrite e true) →
      ∃ t, exec .chestWriteDone s = .next t ∧
        sameButTraffic
          { s with
            path := { s.path with port := none },
            mem := s.mem.write e.address e.stored,
            chest := { s.chest with fifo := s.chest.fifo.tail } } t)
    ∧ (s.path.port = some (.chestWrite e false) →
      ∃ t, exec .chestWriteDone s = .next t ∧
        sameButTraffic
          { s with path := { s.path with port := none }, mem := s.mem.write e.address e.stored } t)

/-- A REPORT_WORD_DONE stores the word. Before the task's last word the next one is requested; the eighth word
of a record advances P modulo N, brings ATTN up to date and leaves the write of P into status word 11; that
word, and the last of a refresh, ends the task (R167, R170, R171). -/
def Obligations.ReportWordDoneAdvances : Prop :=
  ∀ (a : Nat) (v : Word) (i : Installed) (k : TaskKind) (x : Nat × Word) (rest : List (Nat × Word))
    (s : State), s.path.waiting = none → s.path.port = some (.reportWrite a v false) →
    s.loader.installed = some i → s.report.task = some { kind := k, words := x :: rest } →
    ∃ t, exec .reportWordDone s = .next t ∧
      sameButTraffic
        { s with
          path := { s.path with port := none },
          mem := s.mem.write a v,
          report :=
            if rest ≠ [] then { s.report with task := some { kind := k, words := rest } }
            else if k = .record then
              { s.report with
                producer := (s.report.producer + 1) % i.logCount,
                attn := (s.report.producer + 1) % i.logCount != s.report.consumer,
                task := some
                  { kind := .producerWord,
                    words := [(i.statusBase + 11, capped ((s.report.producer + 1) % i.logCount))] } }
            else { s.report with task := none } } t

/-- A PORT_ACCESS_DONE: the processor's read returns its word, inverted where it is so decoded, and its write
is stored, each with READY active again; a write that waited to a word of the anchor block or the score area is
handed on at its completion, so that it ends as its command does on a free port; a write to a chest word stores
the value as its grant inverted it; a write-back is stored; with the port free nothing happens (R57, R151, R154,
R155, R156). That the row completes whichever access is on the port is the model's reading (log entry 6), and
that it has no effect on a free port the model's choice (log entry 1). -/
def Obligations.PortAccessDoneCompletes : Prop :=
  ∀ (a : Nat) (v : Word) (s : State),
    (∀ c : Instr, accessOf c = some (.write a v) → s.path.waiting = none →
      s.path.port = some (.procWrite a v) →
      (regionOf s.loader.installed a = .anchor ∨ regionOf s.loader.installed a = .score) →
      exec .portAccessDone s = exec c { s with path := { s.path with port := none, ready := true } })
    ∧ (s.path.waiting = none → s.path.port = some (.procRead a false) →
      ∃ t, exec .portAccessDone s = .next t ∧
        sameButTraffic
          { s with path := { s.path with port := none, ready := true, readData := s.mem.read a } } t)
    ∧ (s.path.waiting = none → s.path.port = some (.procRead a true) →
      ∃ t, exec .portAccessDone s = .next t ∧
        sameButTraffic
          { s with path := { s.path with port := none, ready := true, readData := ~~~(s.mem.read a) } } t)
    ∧ (s.path.waiting = none → s.path.port = some (.procWrite a v) →
        (regionOf s.loader.installed a = .other ∨ regionOf s.loader.installed a = .chest) →
      ∃ t, exec .portAccessDone s = .next t ∧
        sameButTraffic
          { s with path := { s.path with port := none, ready := true }, mem := s.mem.write a v } t)
    ∧ (s.path.waiting = none → s.path.port = some (.writeBack a v) →
      ∃ t, exec .portAccessDone s = .next t ∧
        sameButTraffic
          { s with path := { s.path with port := none }, mem := s.mem.write a v } t)
    ∧ (s.path.port = none → exec .portAccessDone s = .next s)

/-- The arbiter (R155). With a processor read waiting at a count below 2, the end of a chest write grants the
next chest write, the highest requester, and raises the count; at a count of 2 it grants the processor. A
WRITE_BACK_GRANT with the port free and no higher request: the oldest entry's mask, as it then stands, goes to
anchor word 26 + 3d, and the entry leaves the list (R156). When the last chest write ends, the FIFO empty, the next
granted is the admission fetch; with none the read of the load, or of the pickup entry at the list's head; with none
of these a write-back that waits holds the port free for its own row, and with none the report writer's next word
(R155; that a write-back's grant is a row of its own, log entry 8). A processor access that waits at a count below 2
waits on, and a grant raises its count. At a count of 2, or with no part requester waiting, the processor access is
granted, decoded by the region map as it then stands, and the count becomes 0 (R150, R155): a read, and a write with
its value inverted for a chest word of a division of reverse polarity (R57), go on the port; a write into the log area,
the status block or the protected chest is dropped without it, with PROTECT_DROP, the protect-seen flag set and READY
active (R56, R152), and the port goes to the chest write behind it, or to no one. -/
def Obligations.ArbiterGrants : Prop :=
  (∀ (e f : FifoEntry) (rest : List FifoEntry) (a : Nat) (s : State),
    s.path.port = some (.chestWrite e true) → s.chest.fifo = e :: f :: rest →
    s.path.waiting = some (.read a) →
    (s.path.yieldCount < 2 →
      ∃ t, exec .chestWriteDone s = .next t ∧ t.path.port = some (.chestWrite f true)
        ∧ t.path.yieldCount = s.path.yieldCount + 1 ∧ t.path.waiting = some (.read a)
        ∧ t.mem = s.mem.write e.address e.stored ∧ t.chest.fifo = f :: rest)
    ∧ (s.path.yieldCount = 2 →
      ∃ t, exec .chestWriteDone s = .next t ∧ (∃ b, t.path.port = some (.procRead a b))
        ∧ t.path.yieldCount = 0 ∧ t.path.waiting = none
        ∧ t.mem = s.mem.write e.address e.stored ∧ t.chest.fifo = f :: rest))
  ∧ (∀ (e : FifoEntry) (s : State) (granted : Option PortAccess → State → Prop),
    s.path.port = some (.chestWrite e true) → s.chest.fifo = [e] →
    (s.path.waiting = none ∨ (∃ a, s.path.waiting = some (.read a)) ∧ s.path.yieldCount < 2) →
    (∀ q t, granted q t ↔ exec .chestWriteDone s = .next t ∧ t.path.port = q ∧ t.chest.fifo = []
      ∧ t.mem = s.mem.write e.address e.stored ∧ t.path.waiting = s.path.waiting
      ∧ t.path.writeBacks = s.path.writeBacks
      ∧ t.path.yieldCount
        = (if q ≠ none ∧ s.path.waiting ≠ none then s.path.yieldCount + 1 else s.path.yieldCount)) →
    (∀ r, s.admission.request = some r →
      ∃ t, granted (some (.fetchRead r.address r.discard)) t ∧ t.admission.request = none)
    ∧ (s.admission.request = none → s.admission.list = [] →
      (∀ ws, s.loader.load = some ws → ∃ t, granted (some (.anchorRead ws.length false)) t)
      ∧ (s.loader.load = none → (s.loader.config = .configured ∨ s.loader.config = .deferred) →
        ∀ f rest, s.loader.pickupList = f :: rest →
        ∃ t, granted (some (.pickupRead (36 + 3 * f.pickup.val + s.loader.pickupGot.length) false)) t)
      ∧ (s.loader.load = none → s.loader.pickupList = [] →
        (s.path.writeBacks ≠ [] → ∃ t, granted none t)
        ∧ (∀ task x rest, s.path.writeBacks = [] → s.report.task = some task → task.words = x :: rest →
          ∃ t, granted (some (.reportWrite x.1 x.2 false)) t))))
  ∧ (∀ (e : FifoEntry) (rest : List FifoEntry) (s done : State) (inverted : Nat → Prop)
      (alone : Prop) (left : State → State → Prop),
    s.path.port = some (.chestWrite e true) → s.chest.fifo = e :: rest →
    alone = (rest = [] ∧ s.admission.request = none ∧ s.admission.list = [] ∧ s.loader.load = none
      ∧ s.loader.pickupList = [] ∧ s.path.writeBacks = [] ∧ s.report.task = none) →
    (s.path.yieldCount = 2 ∨ alone) →
    (∀ n, inverted n = ∃ i, s.loader.installed = some i ∧ regionOf (some i) n = .chest
      ∧ (s.chest.division (chestDivision i n)).reverse = true) →
    done = { s with mem := s.mem.write e.address e.stored, chest := { s.chest with fifo := rest } } →
    (∀ u t, left u t = (exec .chestWriteDone s = .next t ∧
      ∃ adm wait, t = { u with admission := adm, spaceWait := wait })) →
    (∀ n, s.path.waiting = some (.read n) →
      (inverted n → ∃ t, left { done with path := { s.path with
        port := some (.procRead n true), waiting := none, yieldCount := 0 } } t)
      ∧ (¬ inverted n → ∃ t, left { done with path := { s.path with
        port := some (.procRead n false), waiting := none, yieldCount := 0 } } t))
    ∧ (∀ (n : Nat) (v : Word) (region : Region) (guarded : Prop), s.path.waiting = some (.write n v) →
      region = regionOf s.loader.installed n →
      guarded = (region = .chest ∧ (s.tracker.state ≠ .idle ∨ s.chest.sweep ≠ none)) →
      (region ≠ .log → region ≠ .status → ¬ guarded →
        (inverted n → ∃ t, left { done with path := { s.path with
          port := some (.procWrite n (~~~v)), waiting := none, yieldCount := 0 } } t)
        ∧ (¬ inverted n → ∃ t, left { done with path := { s.path with
          port := some (.procWrite n v), waiting := none, yieldCount := 0 } } t))
      ∧ (∀ (b : Block) (r : DropRegion),
        (guarded ∧ b = .chest ∧ r = .chest ∨ region = .log ∧ b = .memoryPath ∧ r = .log
          ∨ region = .status ∧ b = .memoryPath ∧ r = .status) →
        ∃ t next, left { done with
            chest := { done.chest with protectSeen := true },
            raised := s.raised ++ [s.reported b (.protectDrop n v r)],
            path := { s.path with port := next, waiting := none, yieldCount := 0, ready := true } } t
          ∧ (∀ f more, rest = f :: more → next = some (.chestWrite f true))
          ∧ (alone → next = none))))
  ∧ ∀ (b : WriteBack) (rest : List WriteBack) (s : State), s.portFree → s.chest.fifo = [] →
    s.admission.request = none → s.loader.load = none → s.loader.pickupList = [] →
    s.path.writeBacks = b :: rest →
    exec .writeBackGrant s = .next
      { s with
        path := { s.path with
          port := some (.writeBack (26 + 3 * b.division.val) b.mask), writeBacks := rest } }

/-! ### Frames and the listening path -/

/-- A FRAME_START after the first raises the frame count by 1, modulo 2^32, and changes nothing else of the sense link
controller (R59); the first after RESET begins frame 0 (log entry 9). With nothing due and nothing running, it also
writes the trail entry, keeps the samples and makes the periodic refresh due, and that is all (R118, R120, R141, R145,
R171).

The expiry test (R102 to R104), in each order of the blocks: the cues whose stamp plus W lies below the trail position
of the frame that lies the expiry lag back are missed in list order, and their slots become FREE. In LEADING and
COASTING the counts become 0; in FOLLOWING the miss count rises, and the miss that brings it to LossLimit sends Loss,
with COASTING entered. In WAITING a miss does not count, and the wait timer rises, or comes to WaitLimit (R110; the
expiry is an event of its own, log entry 10). The reports carry the position that the order gives (log entry 10).

The run controller, with no CANCEL outcome (R144 to R148). Outside the running states: two low samples make the drop
of a CONFIRMED wind due; in WINDING two high samples take UNCONFIRMED to SETTLING, each later high one raises the
settle, a low one ends it, and at WindSettle WIND_CONFIRMED is due. The limit counter then rises, or makes WIND_LIMIT
due; the hold timer falls, or makes HOLD_EXPIRY due. A wind CONFIRMED from before WINDING is reported ready at its
first frame start, and WINDING ends or stale WAIT cues are cleared (R130). In a running state two low samples make the
drop due, the tracker having advanced. That an outcome is a row of its own, and the order limit, hold, are the model's
choice (log entry 28). -/
def Obligations.FrameStartTaken : Prop :=
  ∀ (c w : Bool) (o : FrameOrder) (s : State),
    (s.link.begun = true → ∃ t, exec (.frameStart c w o) s = .next t
      ∧ t.link = { s.link with frame := s.link.frame + 1 })
    ∧ (s.link.begun = false → ∃ t, exec (.frameStart c w o) s = .next t
      ∧ t.link = { s.link with begun := true })
    ∧ (s.link.begun = true → s.path.waiting = none → s.run.stage = .done →
      s.matcher.expiryDue = false → s.fuser.window = none → s.chest.sounding = [] →
      s.tracker.state.advancing = false → s.matcher.announced.running = false →
      s.run.announced ≠ .winding → s.run.wind = .unrequested → s.run.limitRunning = false →
      s.run.holdRunning = false → s.run.cancelHeld = false → c = false →
      ∃ t, exec (.frameStart c w o) s = .next t ∧
        sameButTraffic
          { s with
            link := { s.link with frame := s.link.frame + 1 },
            tracker := { s.tracker with
              trail := s.tracker.trail.set ((s.link.frame + 1).toNat % 512)
                (s.tracker.position / 65536) },
            run := { s.run with
              cancelPrev := some false, windPrev := s.run.windLast, windLast := some w },
            report := { s.report with
              refreshDue := s.report.refreshDue ||
                ((s.link.frame + 1).toNat % 20 == 0 && s.loader.installed.isSome) } } t)
    ∧ (∀ (i : Installed) (n pos : Nat) (now : Frame) (kept missed : List CueEntry),
      c = false → s.frameQuiet w → s.loader.installed = some i →
      s.matcher.lag = some n → 3 ≤ n → n ≤ 288 → s.matcher.announced = s.tracker.state →
      s.slotsDistinct = true → now = s.link.frame + 1 → (s.tracker.frameStart now).changes = [] →
      kept = s.matcher.cues.filter (fun e => decide (s.nextExpiryTrail n ≤ e.stamp + e.w)) →
      missed = s.matcher.cues.filter (fun e => decide (e.stamp + e.w < s.nextExpiryTrail n)) →
      leastWait kept = s.matcher.waitStamp → s.matcher.waitStamp = s.tracker.waitStamp →
      pos = (if trackerFirst o then (s.tracker.frameStart now).tracker.position
        else s.tracker.position) / 65536 →
      ((s.tracker.state = .leading ∨ s.tracker.state = .coasting
          ∨ s.tracker.state = .following ∧ s.matcher.miss + missed.length < i.lossLimit
          ∨ s.tracker.state = .waiting ∧ s.matcher.timerStopped = false) →
        ∃ t, exec (.frameStart c w o) s = .next t ∧
          sameButTraffic
            { s with
              link := { s.link with frame := now },
              tracker := (s.tracker.frameStart now).tracker,
              matcher :=
                if s.tracker.state = .waiting then
                  if i.waitLimit ≠ 0 ∧ i.waitLimit ≤ s.matcher.timer + 1 then
                    { s.matcher with cues := kept, expiryDue := true }
                  else { s.matcher with cues := kept, timer := min 65535 (s.matcher.timer + 1) }
                else if s.tracker.state = .following then
                  { s.matcher with cues := kept, miss := s.matcher.miss + missed.length }
                else if missed = [] then s.matcher
                else { s.matcher with cues := kept, capture := 0, miss := 0 },
              admission := { s.admission with
                slots := missed.foldl (fun m e => Table.set .free m e.slot .free) s.admission.slots },
              run := { s.run with
                cancelPrev := some false, windPrev := s.run.windLast, windLast := some w,
                stage := .done },
              report := { s.report with
                refreshDue := s.report.refreshDue || now.toNat % 20 == 0 },
              raised := s.raised ++ missed.map (fun e =>
                { block := .matcher,
                  record :=
                    { report := .miss e.slot e.stamp e.w e.wait e.anchor false
                        (s.tracker.state != .waiting),
                      frame := now, position := pos } }) } t)
      ∧ (∀ (before after : List CueEntry) (e : CueEntry) (miss : CueEntry → Raised),
        s.tracker.state = .following → missed = before ++ e :: after →
        s.matcher.miss + before.length + 1 = i.lossLimit →
        (∀ x, miss x =
          { block := .matcher,
            record := { report := .miss x.slot x.stamp x.w x.wait x.anchor false true,
                        frame := now, position := pos } }) →
        ∃ t, exec (.frameStart c w o) s = .next t
          ∧ t.tracker = { (s.tracker.frameStart now).tracker with
              state := .coasting, returnState := none }
          ∧ t.matcher = { s.matcher with
              cues := kept, capture := 0, miss := 0, announced := .coasting, expiryDue := false }
          ∧ t.admission.list = s.admission.list
          ∧ (∀ n, ¬ s.headsList n → t.slot n = Table.get .free
              (missed.foldl (fun m e => Table.set .free m e.slot .free) s.admission.slots) n)
          ∧ t.raised = s.raised ++ before.map miss ++ [miss e,
              { block := .tracker,
                record := { report := .state .following .coasting .loss, frame := now,
                            position := pos } }] ++ after.map miss
          ∧ t.release = s.release ∧ t.chest = s.chest ∧ t.mem = s.mem))
    ∧ (∀ (i : Installed) (now : Frame) (sampled : RunControl) (taken : RunControl → Prop),
      s.nothingDue → s.loader.installed = some i → now = s.link.frame + 1 →
      s.tracker.state.advancing = false → s.matcher.announced.running = false →
      (s.run.cancelHeld = false → c = false ∨ s.run.cancelPrev ≠ some true) →
      (s.run.cancelHeld = true → c = true ∨ s.run.cancelPrev ≠ some false) →
      sampled = { s.run with
        cancelPrev := some c, windPrev := s.run.windLast, windLast := some w, stage := .done } →
      (∀ r, taken r = ∃ t, exec (.frameStart c w o) s = .next t ∧
        sameButTraffic
          { s with
            link := { s.link with frame := now },
            tracker := { s.tracker with
              trail := s.tracker.trail.set (now.toNat % 512) (s.tracker.position / 65536) },
            run := r,
            report := { s.report with
              refreshDue := s.report.refreshDue || now.toNat % 20 == 0 } } t) →
      (s.run.wind = .confirmed → s.run.windLast = some false → w = false →
        taken { sampled with stage := .drop })
      ∧ (s.run.announced = .winding → s.run.wind = .unconfirmed → s.run.windLast = some true →
        w = true → i.windSettle = 0 → taken { sampled with settle := 0, stage := .confirm })
      ∧ (s.run.announced = .winding → s.run.wind = .settling → w = true →
        i.windSettle ≤ s.run.settle + 1 →
        taken { sampled with settle := s.run.settle + 1, stage := .confirm })
      ∧ (∀ settled counted : RunControl,
        (s.run.announced = .winding ∧ s.run.wind = .unconfirmed ∧ s.run.windLast = some true ∧ w = true
            ∧ 0 < i.windSettle ∧ settled = { sampled with wind := .settling, settle := 0 }
          ∨ s.run.announced = .winding ∧ s.run.wind = .unconfirmed
            ∧ (s.run.windLast ≠ some true ∨ w = false) ∧ settled = sampled
          ∨ s.run.announced = .winding ∧ s.run.wind = .settling ∧ w = true
            ∧ s.run.settle + 1 < i.windSettle ∧ settled = { sampled with settle := s.run.settle + 1 }
          ∨ s.run.announced = .winding ∧ s.run.wind = .settling ∧ w = false
            ∧ settled = { sampled with wind := .unconfirmed, settle := 0 }
          ∨ (s.run.announced ≠ .winding ∨ s.run.wind = .confirmed ∧ s.run.readyReported = true)
            ∧ (s.run.wind = .confirmed → w = true ∨ s.run.windLast ≠ some false)
            ∧ settled = sampled) →
        counted = (if s.run.limitRunning then { settled with limit := min 65535 (s.run.limit + 1) }
          else settled) →
        (s.run.limitRunning = true → settled.wind ≠ .confirmed → i.windLimit ≤ s.run.limit + 1 →
          taken { settled with stage := .limit })
        ∧ ((s.run.limitRunning = true →
              settled.wind = .confirmed ∨ s.run.limit + 1 < i.windLimit) →
          (s.run.holdRunning = false → taken counted)
          ∧ (s.run.holdRunning = true → 1 < s.run.hold →
            taken { counted with hold := s.run.hold - 1 })
          ∧ (s.run.holdRunning = true → s.run.hold ≤ 1 → taken { counted with stage := .hold })))
      ∧ (s.run.announced = .winding → s.tracker.state = .winding → s.run.wind = .confirmed →
        (w = true ∨ s.run.windLast ≠ some false) → s.run.readyReported = false →
        ∃ t more, exec (.frameStart c w o) s = .next t
          ∧ t.run.wind = .confirmed ∧ t.run.readyReported = true ∧ t.run.limitRunning = false
          ∧ t.run.limit = (if s.run.limitRunning then min 65535 (s.run.limit + 1) else s.run.limit)
          ∧ t.raised = s.raised ++
              { block := .run,
                record := { report := .wind .ready, frame := now,
                            position := s.tracker.position / 65536 } } :: more
          ∧ ((∀ x, s.tracker.waitStamp = some x → s.tracker.position ≤ x * 65536) →
            more.head? = some
              { block := .tracker,
                record := { report := .state .winding .leading .windReady, frame := now,
                            position := s.tracker.position / 65536 } })
          ∧ (∀ x, s.tracker.waitStamp = some x → x * 65536 < s.tracker.position →
            t.tracker.state = .winding ∧ t.tracker.awaitingClear = true
              ∧ t.matcher.clearAnswer = true)))
    ∧ (∀ (i : Installed) (n : Nat) (now : Frame), c = false → w = false → s.nothingDue →
      s.loader.installed = some i → now = s.link.frame + 1 → s.run.cancelHeld = false →
      s.run.wind = .confirmed → s.run.windLast = some false → s.tracker.state.running = true →
      s.matcher.announced = s.tracker.state → s.matcher.lag = some n → 3 ≤ n → n ≤ 288 →
      (s.tracker.frameStart now).changes = [] →
      (∀ e ∈ s.matcher.cues, s.nextExpiryTrail n ≤ e.stamp + e.w) →
      ∃ t, exec (.frameStart c w o) s = .next t
        ∧ t.run = { s.run with
            cancelPrev := some false, windPrev := some false, windLast := some false, stage := .drop }
        ∧ t.tracker = (s.tracker.frameStart now).tracker
        ∧ t.raised = s.raised ∧ t.chest = s.chest ∧ t.mem = s.mem)

/-- The start of a frame at the tracker in an advancing state (R117, R118, R132): the advance is taken from the
lag credit first; the rest moves the position, clamped at the wait stamp with WAITING entered, or saturated at
the end of the range with RANGE_END and HALTED; the trail entry of the frame holds the integer position. With a
FRAME_START that finds no cue missed and brings nothing at the run controller, in each order of the blocks (log
entry 10): a free advance is the whole change of the tracker, with no report; a landing on the wait stamp enters
WAITING with the return state, the lag credit 0 and a STATE report (R125); a saturation raises RANGE_END, then
STATE, and enters HALTED with the MUTE sweep requested (R131). -/
def Obligations.FrameAdvance : Prop :=
  (∀ (now : Frame) (t : Tracker) (q p : Nat), t.state.advancing = true →
    q = (t.tempo * 2048 + t.remainder) / 125 → p = t.position + (q - t.lag) →
    (∀ w, t.waitStamp = some w → t.position ≤ w * 65536) →
    (t.frameStart now).tracker.remainder = (t.tempo * 2048 + t.remainder) % 125
      ∧ (t.frameStart now).tracker.lag = t.lag - q
      ∧ (t.frameStart now).tracker.tempo = t.tempo
      ∧ (t.frameStart now).tracker.trail
          = t.trail.set (now.toNat % 512) ((t.frameStart now).tracker.position / 65536)
      ∧ (∀ w, t.waitStamp = some w → w * 65536 ≤ p →
          (t.frameStart now).tracker.position = w * 65536
            ∧ (t.frameStart now).changes = [(.waiting, .waitReached)])
      ∧ ((∀ w, t.waitStamp = some w → p < w * 65536) → p / 65536 ≤ 2147483647 →
          (t.frameStart now).tracker.position = p ∧ (t.frameStart now).changes = []
            ∧ (t.frameStart now).reports = [])
      ∧ ((∀ w, t.waitStamp = some w → p < w * 65536) → 2147483647 < p / 65536 →
          (t.frameStart now).tracker.position = 2147483647 * 65536 + 65535
            ∧ (t.frameStart now).changes = [(.halted, .rangeEnd)]
            ∧ (t.frameStart now).reports = [.rangeEnd (t.position / 65536) t.tempo]))
  ∧ ∀ (w : Bool) (o : FrameOrder) (i : Installed) (n q p : Nat) (now : Frame) (s : State),
    s.frameQuiet w → s.loader.installed = some i → s.tracker.state.advancing = true →
    s.matcher.announced = s.tracker.state → s.matcher.lag = some n → 3 ≤ n → n ≤ 288 →
    now = s.link.frame + 1 → (∀ e ∈ s.matcher.cues, s.nextExpiryTrail n ≤ e.stamp + e.w) →
    s.matcher.waitStamp = s.tracker.waitStamp →
    (∀ w, s.tracker.waitStamp = some w → s.tracker.position ≤ w * 65536) →
    q = (s.tracker.tempo * 2048 + s.tracker.remainder) / 125 →
    p = s.tracker.position + (q - s.tracker.lag) →
    ((∀ w, s.tracker.waitStamp = some w → p < w * 65536) → p / 65536 ≤ 2147483647 →
      ∃ t, exec (.frameStart false w o) s = .next t
        ∧ t.tracker = { s.tracker with
            position := p, lag := s.tracker.lag - q,
            remainder := (s.tracker.tempo * 2048 + s.tracker.remainder) % 125,
            trail := s.tracker.trail.set (now.toNat % 512) (p / 65536) }
        ∧ t.matcher = s.matcher ∧ t.raised = s.raised ∧ t.link = { s.link with frame := now }
        ∧ t.release = s.release ∧ t.chest = s.chest ∧ t.fuser = s.fuser ∧ t.mem = s.mem)
    ∧ (∀ x, s.tracker.waitStamp = some x → x * 65536 ≤ p →
      ∃ t, exec (.frameStart false w o) s = .next t
        ∧ t.tracker = { s.tracker with
            state := .waiting, returnState := some s.tracker.state, position := x * 65536, lag := 0,
            remainder := (s.tracker.tempo * 2048 + s.tracker.remainder) % 125,
            trail := s.tracker.trail.set (now.toNat % 512) x }
        ∧ t.matcher.announced = .waiting ∧ t.matcher.cues = s.matcher.cues
        ∧ t.matcher.capture = s.matcher.capture ∧ t.matcher.miss = s.matcher.miss
        ∧ t.raised = s.raised ++
            [{ block := .tracker,
               record := { report := .state s.tracker.state .waiting .waitReached, frame := now,
                           position := x } }]
        ∧ t.release = s.release ∧ t.chest = s.chest ∧ t.fuser.window = s.fuser.window ∧ t.mem = s.mem)
    ∧ ((∀ w, s.tracker.waitStamp = some w → p < w * 65536) → 2147483647 < p / 65536 →
      ∃ t, exec (.frameStart false w o) s = .next t
        ∧ t.tracker = { s.tracker with
            state := .halted, resume := false, awaitingClear := false,
            position := 2147483647 * 65536 + 65535, lag := s.tracker.lag - q,
            remainder := (s.tracker.tempo * 2048 + s.tracker.remainder) % 125,
            trail := s.tracker.trail.set (now.toNat % 512) 2147483647 }
        ∧ t.matcher.announced = .halted ∧ t.matcher.cues = s.matcher.cues
        ∧ t.fuser = { window := none, running := false }
        ∧ t.chest = s.chest.requestSweep .mute Divisions.all
        ∧ t.raised = s.raised ++
            [{ block := .tracker,
               record := { report := .rangeEnd (s.tracker.position / 65536) s.tracker.tempo,
                           frame := now, position := 2147483647 } },
             { block := .tracker,
               record := { report := .state s.tracker.state .halted .rangeEnd, frame := now,
                           position := 2147483647 } }]
        ∧ t.release = s.release ∧ t.mem = s.mem)

/-- The messages of the cue matcher at the tracker. A Capture or a Correction in each running state: the rate
correction is clamped to the step and the tempo to its limits, whatever the ANCHOR flag (R122, R123). In LEADING,
FOLLOWING and COASTING (R119, R121): a positive phase correction short of the wait stamp and of the range's end moves
the position by whole su; a negative one goes into the lag credit, capped at 1023 su; from LEADING and COASTING the
tracker enters FOLLOWING with cause CAPTURE (R123). A jump that would reach or pass the wait stamp stops there and
brings WAITING, behind the entry into FOLLOWING (R121, R123, R125); one past the range saturates, with RANGE_END and
HALTED (R132). In WAITING neither moves the position, and the return state becomes FOLLOWING (R123). A First capture
changes nothing (R123). A Loss in FOLLOWING enters COASTING; in WAITING it makes COASTING the return state (R123). A
Wait expired in FOLLOWING, COASTING and WAITING enters LEADING, and from WAITING at once WAITING again where another
WAIT cue stands at the position; in LEADING it changes nothing (R123, R127). A Wait end in WAITING (R126): the
catch-up of n frames at the tempo; the lag credit becomes 0 and FOLLOWING is entered; at the next wait stamp the
catch-up stops, and WAITING is entered at once; past the range it saturates, with RANGE_END and HALTED (R132). In
LEADING and COASTING a Wait end enters FOLLOWING with no catch-up, and in FOLLOWING it changes nothing (R123). That
RANGE_END carries the tempo before the rate correction, and that FOLLOWING is entered ahead of HALTED, is the model's
reading (log entry 15). In IDLE, WINDING, HALTED and STOPPING every message is without effect (R123). -/
def Obligations.MessagesAtTheTracker : Prop :=
  ∀ (i : Installed) (now : Frame) (t : Tracker),
    (∀ (e : Int) (anchor : Bool), i.tmin ≤ i.tmax →
      (t.state = .leading ∨ t.state = .following ∨ t.state = .coasting ∨ t.state = .waiting) →
      ∀ msg, (msg = .capture e anchor ∨ msg = .correction e anchor) →
      ((t.takeMessage i now msg).tracker.tempo : Int)
          = max (i.tmin : Int) (min i.tmax (t.tempo
              + max (-(i.maxTempoStep : Int)) (min i.maxTempoStep ((e * i.rateGain).tdiv 64)))))
    ∧ (∀ (e : Int) (anchor : Bool) (c : Int) (msg : Message),
      (t.state = .leading ∨ t.state = .following ∨ t.state = .coasting) →
      (msg = .capture e anchor ∨ msg = .correction e anchor) →
      c = (if anchor then e else (e * i.phaseGain).tdiv 16) →
      (0 < c →
            (∀ w, t.waitStamp = some w → t.position + c.toNat * 65536 < w * 65536) →
            (t.position + c.toNat * 65536) / 65536 ≤ 2147483647 →
            (t.takeMessage i now msg).tracker.position = t.position + c.toNat * 65536
              ∧ (t.takeMessage i now msg).tracker.lag = t.lag
              ∧ (t.takeMessage i now msg).tracker.trail
                  = t.trail.set (now.toNat % 512) ((t.position + c.toNat * 65536) / 65536)
              ∧ (t.takeMessage i now msg).reports = []
              ∧ (t.takeMessage i now msg).changes
                  = if t.state = .following then [] else [(.following, .capture)])
        ∧ (c ≤ 0 →
            (t.takeMessage i now msg).tracker.position = t.position
              ∧ (t.takeMessage i now msg).tracker.lag
                  = min (1023 * 65536) (t.lag + (-c).toNat * 65536)
              ∧ (t.takeMessage i now msg).tracker.trail = t.trail
              ∧ (t.takeMessage i now msg).reports = []
              ∧ (t.takeMessage i now msg).changes
                  = if t.state = .following then [] else [(.following, .capture)]))
    ∧ (∀ (e : Int) (anchor : Bool) (msg : Message), t.state = .waiting →
      (msg = .capture e anchor ∨ msg = .correction e anchor) →
      (t.takeMessage i now msg).tracker
          = { t with tempo := (t.takeMessage i now msg).tracker.tempo,
                     returnState := some .following }
        ∧ (t.takeMessage i now msg).reports = [] ∧ (t.takeMessage i now msg).changes = [])
    ∧ (∀ (e : Int) (anchor : Bool) (c : Int) (p w : Nat) (msg : Message) (r : TrackerResult),
      (t.state = .leading ∨ t.state = .following ∨ t.state = .coasting) →
      (msg = .capture e anchor ∨ msg = .correction e anchor) →
      c = (if anchor then e else (e * i.phaseGain).tdiv 16) → 0 < c →
      p = t.position + c.toNat * 65536 → r = t.takeMessage i now msg →
      (t.waitStamp = some w → t.position ≤ w * 65536 → w * 65536 ≤ p →
        r.tracker = { t with
            position := w * 65536, tempo := r.tracker.tempo,
            trail := t.trail.set (now.toNat % 512) w }
          ∧ r.reports = []
          ∧ r.changes = (if t.state = .following then [] else [(.following, .capture)])
              ++ [(.waiting, .waitReached)])
      ∧ ((∀ x, t.waitStamp = some x → p < x * 65536) → 2147483647 < p / 65536 →
        r.tracker = { t with
            position := 2147483647 * 65536 + 65535, tempo := r.tracker.tempo,
            trail := t.trail.set (now.toNat % 512) 2147483647 }
          ∧ r.reports = [.rangeEnd (t.position / 65536) t.tempo]
          ∧ r.changes = (if t.state = .following then [] else [(.following, .capture)])
              ++ [(.halted, .rangeEnd)]))
    ∧ t.takeMessage i now .firstCapture = { tracker := t, reports := [], changes := [] }
    ∧ (t.state = .following →
      t.takeMessage i now .loss = { tracker := t, reports := [], changes := [(.coasting, .loss)] })
    ∧ (t.state = .waiting →
      t.takeMessage i now .loss
        = { tracker := { t with returnState := some .coasting }, reports := [], changes := [] })
    ∧ (t.state = .leading ∨ t.state = .coasting →
      t.takeMessage i now .loss = { tracker := t, reports := [], changes := [] })
    ∧ (t.state = .following ∨ t.state = .coasting →
      t.takeMessage i now .waitExpired
        = { tracker := t, reports := [], changes := [(.leading, .waitExpired)] })
    ∧ (t.state = .leading →
      t.takeMessage i now .waitExpired = { tracker := t, reports := [], changes := [] })
    ∧ (t.state = .waiting →
      t.takeMessage i now .waitExpired
        = { tracker := t, reports := [],
            changes := (.leading, .waitExpired) ::
              if t.waitStamp.any (fun w => w * 65536 == t.position) then [(.waiting, .waitReached)]
              else [] })
    ∧ (∀ (fused : Frame) (p w : Nat) (r : TrackerResult), t.state = .waiting →
      p = t.position + (now - fused).toNat * t.tempo * 2048 / 125 →
      r = t.takeMessage i now (.waitEnd fused) →
      (t.waitStamp = some w → t.position ≤ w * 65536 → w * 65536 ≤ p →
        r = { tracker := { t with
                position := w * 65536, lag := 0, trail := t.trail.set (now.toNat % 512) w },
              reports := [], changes := [(.following, .waitEnd), (.waiting, .waitReached)] })
      ∧ ((∀ x, t.waitStamp = some x → p < x * 65536) → 2147483647 < p / 65536 →
        r = { tracker := { t with
                position := 2147483647 * 65536 + 65535, lag := 0,
                trail := t.trail.set (now.toNat % 512) 2147483647 },
              reports := [.rangeEnd (t.position / 65536) t.tempo],
              changes := [(.following, .waitEnd), (.halted, .rangeEnd)] }))
    ∧ (∀ (fused : Frame) (p : Nat), t.state = .waiting →
      p = t.position + (now - fused).toNat * t.tempo * 2048 / 125 →
      (∀ w, t.waitStamp = some w → p < w * 65536) → p / 65536 ≤ 2147483647 →
      (t.takeMessage i now (.waitEnd fused)).tracker
          = { t with
              position := p, lag := 0,
              trail := t.trail.set (now.toNat % 512) (p / 65536) }
        ∧ (t.takeMessage i now (.waitEnd fused)).changes = [(.following, .waitEnd)]
        ∧ (t.takeMessage i now (.waitEnd fused)).reports = [])
    ∧ (∀ fused : Frame, t.state = .leading ∨ t.state = .coasting →
      t.takeMessage i now (.waitEnd fused)
        = { tracker := t, reports := [], changes := [(.following, .waitEnd)] })
    ∧ (∀ fused : Frame, t.state = .following →
      t.takeMessage i now (.waitEnd fused) = { tracker := t, reports := [], changes := [] })
    ∧ (∀ msg : Message,
      (t.state = .idle ∨ t.state = .winding ∨ t.state = .halted ∨ t.state = .stopping) →
      t.takeMessage i now msg = { tracker := t, reports := [], changes := [] })

/-- A fused onset at the cue matcher (R105 to R109). In LEADING, FOLLOWING and COASTING, with the trail position P:
the first cue in list order whose stamp lies from P − W to P + W is matched; the cues ahead of it leave as
overtaken, uncounted misses, ahead of the MATCH report; in FOLLOWING the miss count becomes 0 and a Correction with
the error goes to the tracker; in LEADING and COASTING the first match makes the capture count 1 and sends First
capture, and the second makes it 2, with the miss count 0, and sends Capture; with no such cue it is a stray (R106 to
R108). In WAITING the first WAIT cue is matched with error 0, whatever P; the counts become 2 and 0, and Wait end
goes to the tracker with the fused frame; with no WAIT cue in the list the onset is matched by window, under
FOLLOWING with a capture count of 2 and under LEADING otherwise (R109). In IDLE, WINDING, HALTED and STOPPING it is
discarded (R105). -/
def Obligations.FusedOnsetMatched : Prop :=
  ∀ (m : Matcher) (o : FusedOnset) (p : Nat) (following : Bool),
    ((following = true ∧ (m.announced = .following
          ∨ m.announced = .waiting ∧ (∀ x ∈ m.cues, x.wait = false) ∧ m.capture = 2)
        ∨ following = false ∧ (m.announced = .leading ∨ m.announced = .coasting
          ∨ m.announced = .waiting ∧ (∀ x ∈ m.cues, x.wait = false) ∧ m.capture ≠ 2)) →
      (∀ (ahead behind : List CueEntry) (e : CueEntry), m.cues = ahead ++ e :: behind →
        (∀ x ∈ ahead, ¬ (p ≤ x.stamp + x.w ∧ x.stamp ≤ p + x.w)) →
        p ≤ e.stamp + e.w → e.stamp ≤ p + e.w →
        m.takeFused p o =
          { matcher :=
              if following then { m with cues := behind, miss := 0 }
              else if m.capture = 0 then { m with cues := behind, capture := 1 }
              else { m with cues := behind, capture := 2, miss := 0 },
            reports := ahead.map (fun x => .miss x.slot x.stamp x.w x.wait x.anchor true false)
              ++ [.matched e.slot ((e.stamp : Int) - p) o.strength (o.contributors.map (fun c => c.1))],
            freed := ahead.map (fun x => x.slot) ++ [e.slot],
            message := some
              (if following then .correction ((e.stamp : Int) - p) e.anchor
               else if m.capture = 0 then .firstCapture
               else .capture ((e.stamp : Int) - p) e.anchor) })
      ∧ ((∀ x ∈ m.cues, ¬ (p ≤ x.stamp + x.w ∧ x.stamp ≤ p + x.w)) →
        m.takeFused p o =
          { matcher := m,
            reports := [.stray o.frame o.strength (o.contributors.map (fun c => c.1)) p], freed := [],
            message := none }))
    ∧ (∀ (ahead behind : List CueEntry) (e : CueEntry), m.announced = .waiting →
      m.cues = ahead ++ e :: behind → (∀ x ∈ ahead, x.wait = false) → e.wait = true →
      m.takeFused p o =
        { matcher := { m with cues := behind, capture := 2, miss := 0 },
          reports := ahead.map (fun x => .miss x.slot x.stamp x.w x.wait x.anchor true false)
            ++ [.matched e.slot 0 o.strength (o.contributors.map (fun c => c.1))],
          freed := ahead.map (fun x => x.slot) ++ [e.slot],
          message := some (.waitEnd o.frame) })
    ∧ ((m.announced = .idle ∨ m.announced = .winding ∨ m.announced = .halted
        ∨ m.announced = .stopping) →
      m.takeFused p o = { matcher := m, reports := [], freed := [], message := none })

/-- An onset at the fuser (R87 to R90): discarded with the running flag clear; with no window open it opens one, with
its contribution and its compensated frame; within an open window's span a pickup contributes once, and joins with its
contribution, its compensated frame and its arrival frame, in its place by arrival frame, counted from the opening
arrival, and then by pickup number, so that the list keeps that order (R86); an onset past the closing frame closes
the window, which yields what its threshold gives, and opens the next. The span of a window runs from the opening
arrival to the closing frame, which is MergeSpan frames later, both counted, modulo 2^32; so the closing frame is in it
and the frame after is not (R88). -/
def Obligations.OnsetOpensOrJoinsWindow : Prop :=
  (∀ (w : Window) (span : Nat) (a : Frame), span + 1 < 2 ^ 32 →
    w.closing = w.opening + BitVec.ofNat 32 span →
    (w.spans a = true ↔ ∃ n, n ≤ span ∧ a = w.opening + BitVec.ofNat 32 n)
      ∧ w.spans w.opening = true ∧ w.spans w.closing = true ∧ w.spans (w.closing + 1) = false)
  ∧ ∀ (e : PickupEntry) (o : Onset) (span threshold : Nat) (f : Fuser),
    (f.running = false → f.takeOnset span threshold (contributorOf e o) = (f, none))
    ∧ (f.running = true → f.window = none →
      f.takeOnset span threshold (contributorOf e o) =
        ({ f with
            window := some
              { opening := o.arrival, closing := o.arrival + BitVec.ofNat 32 span,
                contributors :=
                  [{ pickup := o.pickup, strength := o.strength,
                     contribution := o.strength * e.weight,
                     compensated := o.frame - BitVec.ofNat 32 e.delay, arrival := o.arrival }],
                sum := o.strength * e.weight } }, none))
    ∧ (∀ w, f.running = true → f.window = some w → w.spans o.arrival = true →
      (∃ d ∈ w.contributors, d.pickup = o.pickup) →
      f.takeOnset span threshold (contributorOf e o) = (f, none))
    ∧ (∀ w, f.running = true → f.window = some w → w.spans o.arrival = true →
      (∀ d ∈ w.contributors, d.pickup ≠ o.pickup) →
      ∃ ahead behind, w.contributors = ahead ++ behind
        ∧ f.takeOnset span threshold (contributorOf e o) =
          ({ f with
              window := some
                { w with
                  contributors := ahead ++
                    { pickup := o.pickup, strength := o.strength,
                      contribution := o.strength * e.weight,
                      compensated := o.frame - BitVec.ofNat 32 e.delay, arrival := o.arrival } :: behind,
                  sum := w.sum + o.strength * e.weight } }, none)
        ∧ (∀ d ∈ ahead, (d.arrival - w.opening).toNat < (o.arrival - w.opening).toNat
            ∨ d.arrival = o.arrival ∧ d.pickup < o.pickup)
        ∧ (∀ d, behind.head? = some d → (o.arrival - w.opening).toNat < (d.arrival - w.opening).toNat
            ∨ d.arrival = o.arrival ∧ o.pickup < d.pickup)
        ∧ (w.contributors.Pairwise (fun c d =>
              (c.arrival - w.opening).toNat < (d.arrival - w.opening).toNat
                ∨ c.arrival = d.arrival ∧ c.pickup < d.pickup) →
            ∀ d ∈ behind, (o.arrival - w.opening).toNat < (d.arrival - w.opening).toNat
              ∨ d.arrival = o.arrival ∧ o.pickup < d.pickup))
    ∧ (∀ w, f.running = true → f.window = some w → w.spans o.arrival = false →
      f.takeOnset span threshold (contributorOf e o) =
        ({ f with
            window := some
              { opening := o.arrival, closing := o.arrival + BitVec.ofNat 32 span,
                contributors :=
                  [{ pickup := o.pickup, strength := o.strength,
                     contribution := o.strength * e.weight,
                     compensated := o.frame - BitVec.ofNat 32 e.delay, arrival := o.arrival }],
                sum := o.strength * e.weight } }, w.fused threshold))

/-- A WINDOW_CLOSE past the closing frame takes the window away. Below FusionThreshold it yields nothing, and no
report is raised (R91). At or above it yields the fused onset: the compensated frame of its leading contributor,
the one of the largest contribution and the first in list order among equals, the running sum as its strength,
and the contributors with their contributions in list order (R92, R93). In the same event the cue matcher takes it
(R93, R105), and the tracker the matcher's message (R121), here with the cues that leave keeping the wait stamp
as it was: with the trail position P of the fused frame, a cue of LEADING, FOLLOWING or COASTING that matches no
stamp gives a STRAY report and no more (R106); a first match in LEADING or COASTING makes the capture count 1 and
leaves the tracker as it was (R108); a match in FOLLOWING corrects tempo and position, and one after the first in
LEADING or COASTING does so too and enters FOLLOWING (R121 to R123); in WAITING the first WAIT cue ends the wait
and FOLLOWING is entered with the catch-up (R109, R126). Outside the running states the onset is discarded (R105).
With no window open, or one not yet past its closing frame, nothing happens (R90; log entry 1). -/
def Obligations.WindowCloseTaken : Prop :=
  (∀ (i : Installed) (w : Window) (s : State), s.path.waiting = none →
    s.loader.installed = some i → s.fuser.window = some w → w.spans s.link.frame = false →
    (w.sum < i.fusionThreshold →
      w.fused i.fusionThreshold = none ∧
      ∃ t, exec .windowClose s = .next t ∧
        sameButTraffic { s with fuser := { s.fuser with window := none } } t)
    ∧ (∀ (before behind : List Contributor) (c : Contributor) (o : FusedOnset) (p : Nat),
      i.fusionThreshold ≤ w.sum → w.contributors = before ++ c :: behind →
      (∀ d ∈ before, d.contribution < c.contribution) →
      (∀ d ∈ behind, d.contribution ≤ c.contribution) →
      o = { frame := c.compensated, strength := w.sum,
            contributors := w.contributors.map (fun d => (d.pickup, d.contribution)) } →
      p = s.tracker.trail.getD (c.compensated.toNat % 512) 0 →
      w.fused i.fusionThreshold = some o
      ∧ (∃ t, exec .windowClose s = .next t ∧
        sameButTraffic
          (State.takeFused (some o) { s with fuser := { s.fuser with window := none } }) t)
      ∧ ((s.matcher.announced = .leading ∨ s.matcher.announced = .following
            ∨ s.matcher.announced = .coasting) →
        s.matcher.waitStamp = s.tracker.waitStamp →
        (∀ x ∈ s.matcher.cues, ¬ (p ≤ x.stamp + x.w ∧ x.stamp ≤ p + x.w)) →
        ∃ t, exec .windowClose s = .next t ∧
          sameButTraffic
            { s with
              fuser := { s.fuser with window := none },
              raised := s.raised ++
                [s.reported .matcher
                  (.stray o.frame o.strength (w.contributors.map (fun d => d.pickup)) p)] } t)
      ∧ (∀ (ahead rest : List CueEntry) (e : CueEntry) (reports : List Raised)
          (slots : Table SlotState) (error : Int),
        (s.matcher.announced = .leading ∨ s.matcher.announced = .following
          ∨ s.matcher.announced = .coasting) →
        s.tracker.state = s.matcher.announced →
        s.matcher.cues = ahead ++ e :: rest →
        (∀ x ∈ ahead, ¬ (p ≤ x.stamp + x.w ∧ x.stamp ≤ p + x.w)) →
        p ≤ e.stamp + e.w → e.stamp ≤ p + e.w → leastWait rest = s.tracker.waitStamp →
        error = (e.stamp : Int) - p →
        reports = ahead.map (fun x =>
            s.reported .matcher (.miss x.slot x.stamp x.w x.wait x.anchor true false))
          ++ [s.reported .matcher
            (.matched e.slot error o.strength (w.contributors.map (fun d => d.pickup)))] →
        slots = (ahead.map (fun x => x.slot) ++ [e.slot]).foldl
          (fun m n => Table.set .free m n .free) s.admission.slots →
        (s.matcher.announced ≠ .following → s.matcher.capture = 0 →
          ∃ t, exec .windowClose s = .next t ∧
            sameButTraffic
              { s with
                fuser := { s.fuser with window := none },
                matcher := { s.matcher with cues := rest, capture := 1 },
                admission := { s.admission with slots := slots },
                raised := s.raised ++ reports } t)
        ∧ (∀ r : TrackerResult, s.matcher.announced = .following →
          r = s.tracker.takeMessage i s.link.frame (.correction error e.anchor) → r.changes = [] →
          ∃ t, exec .windowClose s = .next t ∧
            sameButTraffic
              { s with
                fuser := { s.fuser with window := none },
                matcher := { s.matcher with cues := rest, miss := 0 },
                tracker := r.tracker,
                admission := { s.admission with slots := slots },
                raised := s.raised ++ reports } t)
        ∧ (∀ r : TrackerResult, s.matcher.announced ≠ .following → s.matcher.capture ≠ 0 →
          r = s.tracker.takeMessage i s.link.frame (.capture error e.anchor) →
          r.changes = [(.following, .capture)] →
          ∃ t, exec .windowClose s = .next t
            ∧ t.tracker = { r.tracker with state := .following, returnState := none }
            ∧ t.matcher = { s.matcher with
                cues := rest, capture := 2, miss := 0, announced := .following, expiryDue := false }
            ∧ t.fuser = { window := none, running := true }
            ∧ (∃ f : Raised, f.block = .tracker ∧ f.record.frame = s.link.frame
                ∧ f.record.position = r.tracker.position / 65536
                ∧ f.record.report = .state s.tracker.state .following .capture
                ∧ t.raised = s.raised ++ reports ++ [f])
            ∧ t.release = s.release ∧ t.chest = s.chest ∧ t.mem = s.mem))
      ∧ (∀ (ahead rest : List CueEntry) (e : CueEntry) (q : Nat),
        s.matcher.announced = .waiting → s.tracker.state = .waiting →
        s.matcher.cues = ahead ++ e :: rest → (∀ x ∈ ahead, x.wait = false) → e.wait = true →
        q = s.tracker.position
          + (s.link.frame - c.compensated).toNat * s.tracker.tempo * 2048 / 125 →
        (∀ x, leastWait rest = some x → q < x * 65536) → q / 65536 ≤ 2147483647 →
        ∃ t, exec .windowClose s = .next t
          ∧ t.tracker = { s.tracker with
              state := .following, returnState := none, waitStamp := leastWait rest,
              position := q, lag := 0,
              trail := s.tracker.trail.set (s.link.frame.toNat % 512) (q / 65536) }
          ∧ t.matcher.cues = rest ∧ t.matcher.capture = 2 ∧ t.matcher.miss = 0
          ∧ t.matcher.announced = .following
          ∧ t.fuser = { window := none, running := true }
          ∧ t.raised = s.raised
            ++ ahead.map (fun x =>
                s.reported .matcher (.miss x.slot x.stamp x.w x.wait x.anchor true false))
            ++ [s.reported .matcher
                (.matched e.slot 0 o.strength (w.contributors.map (fun d => d.pickup))),
                { block := .tracker,
                  record := { report := .state .waiting .following .waitEnd, frame := s.link.frame,
                              position := q / 65536 } }]
          ∧ t.release = s.release ∧ t.chest = s.chest ∧ t.mem = s.mem)
      ∧ (s.matcher.announced.running = false → s.matcher.waitStamp = s.tracker.waitStamp →
        ∃ t, exec .windowClose s = .next t ∧
          sameButTraffic { s with fuser := { s.fuser with window := none } } t)))
  ∧ ∀ s : State, s.path.waiting = none →
    (s.fuser.window = none ∨ ∃ w, s.fuser.window = some w ∧ w.spans s.link.frame = true) →
    ∃ t, exec .windowClose s = .next t ∧ sameButTraffic s t

/-- A SLOT_EVENT completes in every state, touches no other pickup, and takes the slot whole (R60). The slot's fields
are those of R61 and R181; it is good when an odd number of its bits are ones. Of a LISTENING pickup: a parity failure
counts and drops the candidate, and the eighth in a row faults it (R61, R67, R68); the second look of one strength
accepts the onset of the first look's frame, and a code of 1 to 14 behind a code of 0 becomes the candidate (R71,
R72); a good slot whose liveness follows clears the stuck run, one behind no liveness leaves it, any other raises it,
and the fourth in a row faults it; two codes of 15 in a row fault it, and a single one ends a candidate and makes none
(R62, R66, R68, R71).

In FAULT: a good slot behind no liveness leaves the good run, or clears it with a code of 15; one that advances with
another code raises it, and the fourth recovers the pickup, into LISTENING with no value to send, else into
CONFIGURING; a stuck liveness, a code of 15 and a parity failure clear it (R67, R69). In DISABLED and SILENT the slot
is ignored, and the quiet count alone goes on (R61, R63).

An accepted onset goes to the fuser in the same event: in the running states it opens a window when none is open,
outside them it is ignored (R72, R73, R87, R88). A slot event with a reason raises one PICKUP report with old state,
new state and reason, and the expiry lag is then the largest delay of a pickup in LISTENING, or 0, plus MergeSpan plus
2 (R70, R102). LST slot k carries present and the value, most significant bit first, and LFS is high in bit time 0
alone (R59, R60, R63, R181). That a timeout which is due is taken before the slot is the model's choice (log entry
27). -/
def Obligations.SlotEventTakenWhole : Prop :=
  ∀ (k : PickupNo) (bits : BitVec 8) (s : State),
    (∃ t, exec (.slotEvent k bits) s = .next t
      ∧ t.link.pickups[k]
          = (((s.link.pickups[k]).takeTimeout.pickup).slotEvent k s.link.frame bits).pickup
      ∧ (∀ j : PickupNo, j ≠ k → t.link.pickups[j] = s.link.pickups[j])
      ∧ t.link.frame = s.link.frame ∧ t.mem = s.mem)
    ∧ (slotCode bits = bits.toNat / 16 ∧ (slotAck bits = true ↔ bits.toNat / 8 % 2 = 1)
      ∧ slotLiveness bits = bits.toNat / 2 % 4
      ∧ (slotGood bits = true ↔ (List.finRange 8).countP (fun j => bits.getLsbD j.val) % 2 = 1))
    ∧ (∀ (i : Installed) (p : Pickup) (r : PickupResult) (pickups : Vector Pickup 12) (delay : Nat),
      s.path.waiting = none → s.loader.installed = some i → p = s.link.pickups[k] →
      (∀ h, p.handshake = some h → h.timeoutDue = false) → r = p.slotEvent k s.link.frame bits →
      pickups = s.link.pickups.set k r.pickup →
      (∀ j : PickupNo, pickups[j].state = .listening → pickups[j].entry.delay ≤ delay) →
      (delay = 0 ∨ ∃ j : PickupNo, pickups[j].state = .listening ∧ pickups[j].entry.delay = delay) →
      (r.reason ≠ none → r.onset = none)
      ∧ (r.onset = none →
        ∃ t, exec (.slotEvent k bits) s = .next t ∧
          sameButTraffic
            { s with
              link := { s.link with pickups := pickups },
              matcher := { s.matcher with lag := some (delay + i.mergeSpan + 2) },
              raised := s.raised ++
                match r.reason with
                | none => []
                | some x => [s.reported .link (.pickup k p.state r.pickup.state x)] } t))
    ∧ (∀ (i : Installed) (c : Candidate) (p : Pickup), s.path.waiting = none →
      s.loader.installed = some i → p = s.link.pickups[k] → p.state = .listening →
      p.handshake = none → p.candidate = some c → slotGood bits = true →
      slotCode bits = c.strength → c.strength ≠ 15 →
      (p.stuckRun < 3 ∨ p.stuckRun = 3 ∧ ∀ l, p.lastLiveness = some l → slotLiveness bits = (l + 1) % 4) →
      (s.fuser.running = true → s.fuser.window = none) →
      ∃ t, exec (.slotEvent k bits) s = .next t
        ∧ t.fuser =
          (if s.fuser.running then
            { running := true,
              window := some
                { opening := s.link.frame, closing := s.link.frame + BitVec.ofNat 32 i.mergeSpan,
                  contributors :=
                    [{ pickup := k, strength := c.strength,
                       contribution := c.strength * p.entry.weight,
                       compensated := c.frame - BitVec.ofNat 32 p.entry.delay,
                       arrival := s.link.frame }],
                  sum := c.strength * p.entry.weight } }
          else s.fuser)
        ∧ t.link.pickups[k].state = .listening ∧ t.link.pickups[k].candidate = none
        ∧ t.raised = s.raised ∧ t.matcher.cues = s.matcher.cues ∧ t.tracker = s.tracker)
    ∧ (∀ (p : Pickup) (advances coded : Prop), p.state = .listening → p.handshake = none →
      advances = (p.stuckRun < 3
        ∨ p.stuckRun = 3 ∧ ∀ l, p.lastLiveness = some l → slotLiveness bits = (l + 1) % 4) →
      coded = (slotCode bits = 15 ∧ p.lastCode = some 15) →
      (slotGood bits = false → p.parityRun + 1 < 8 →
        (p.slotEvent k s.link.frame bits).onset = none
          ∧ (p.slotEvent k s.link.frame bits).reason = none
          ∧ (p.slotEvent k s.link.frame bits).pickup.state = .listening
          ∧ (p.slotEvent k s.link.frame bits).pickup.parityRun = p.parityRun + 1
          ∧ (p.slotEvent k s.link.frame bits).pickup.stuckRun = 0
          ∧ (p.slotEvent k s.link.frame bits).pickup.lastLiveness = none
          ∧ (p.slotEvent k s.link.frame bits).pickup.lastCode = none
          ∧ (p.slotEvent k s.link.frame bits).pickup.candidate = none)
      ∧ (slotGood bits = false → p.parityRun + 1 = 8 →
        (p.slotEvent k s.link.frame bits).reason = some .parity
          ∧ (p.slotEvent k s.link.frame bits).pickup.state = .fault)
      ∧ (∀ c, slotGood bits = true → ¬ coded → advances → p.candidate = some c →
        (p.slotEvent k s.link.frame bits).pickup.candidate = none
          ∧ (p.slotEvent k s.link.frame bits).reason = none
          ∧ (p.slotEvent k s.link.frame bits).onset
            = if slotCode bits = c.strength then
                some { pickup := k, strength := c.strength, frame := c.frame, arrival := s.link.frame }
              else none)
      ∧ (slotGood bits = true → 1 ≤ slotCode bits → slotCode bits ≤ 14 → advances →
        p.candidate = none → p.lastCode = some 0 →
        (p.slotEvent k s.link.frame bits).pickup.candidate
            = some { strength := slotCode bits, frame := s.link.frame }
          ∧ (p.slotEvent k s.link.frame bits).onset = none)
      ∧ (slotGood bits = true → ¬ coded → advances → p.candidate = none →
        (slotCode bits = 0 ∨ slotCode bits = 15 ∨ p.lastCode ≠ some 0) →
        (p.slotEvent k s.link.frame bits).pickup.candidate = none
          ∧ (p.slotEvent k s.link.frame bits).onset = none)
      ∧ (slotGood bits = true → coded →
        (p.slotEvent k s.link.frame bits).reason = some .faultCode
          ∧ (p.slotEvent k s.link.frame bits).pickup.state = .fault)
      ∧ (slotGood bits = true → ¬ coded → advances →
        (p.slotEvent k s.link.frame bits).pickup.state = .listening
          ∧ (p.slotEvent k s.link.frame bits).reason = none
          ∧ (p.slotEvent k s.link.frame bits).pickup.parityRun = 0
          ∧ (p.slotEvent k s.link.frame bits).pickup.lastLiveness = some (slotLiveness bits)
          ∧ (p.slotEvent k s.link.frame bits).pickup.lastCode = some (slotCode bits)
          ∧ (p.slotEvent k s.link.frame bits).pickup.lst = { present := false, value := 0 }
          ∧ (p.slotEvent k s.link.frame bits).pickup.stuckRun
            = match p.lastLiveness with
              | none => p.stuckRun
              | some l => if slotLiveness bits = (l + 1) % 4 then 0 else p.stuckRun + 1)
      ∧ (∀ l, slotGood bits = true → ¬ coded → p.stuckRun = 3 →
        p.lastLiveness = some l → slotLiveness bits ≠ (l + 1) % 4 →
        (p.slotEvent k s.link.frame bits).reason = some .stuck
          ∧ (p.slotEvent k s.link.frame bits).onset = none
          ∧ (p.slotEvent k s.link.frame bits).pickup.state = .fault
          ∧ (p.slotEvent k s.link.frame bits).pickup.stuckRun = 0
          ∧ (p.slotEvent k s.link.frame bits).pickup.parityRun = 0
          ∧ (p.slotEvent k s.link.frame bits).pickup.goodRun = 0
          ∧ (p.slotEvent k s.link.frame bits).pickup.candidate = none
          ∧ (p.slotEvent k s.link.frame bits).pickup.lastLiveness = some (slotLiveness bits)))
    ∧ (∀ (p : Pickup) (l : Nat), p.state = .fault → p.lastLiveness = some l →
      (slotGood bits = true → slotCode bits ≠ 15 → slotLiveness bits = (l + 1) % 4 → p.goodRun < 3 →
        (p.slotEvent k s.link.frame bits).reason = none
          ∧ (p.slotEvent k s.link.frame bits).pickup.state = .fault
          ∧ (p.slotEvent k s.link.frame bits).pickup.goodRun = p.goodRun + 1)
      ∧ (slotGood bits = true → slotCode bits ≠ 15 → slotLiveness bits = (l + 1) % 4 → p.goodRun = 3 →
        (p.slotEvent k s.link.frame bits).reason = some .recovered
          ∧ (p.slotEvent k s.link.frame bits).onset = none
          ∧ (p.slotEvent k s.link.frame bits).pickup.state
              = (if p.entry.count = 0 then .listening else .configuring)
          ∧ (p.slotEvent k s.link.frame bits).pickup.parityRun = 0
          ∧ (p.slotEvent k s.link.frame bits).pickup.stuckRun = 0
          ∧ (p.slotEvent k s.link.frame bits).pickup.goodRun = 0)
      ∧ (slotGood bits = false ∨ slotLiveness bits ≠ (l + 1) % 4 ∨ slotCode bits = 15 →
        (p.slotEvent k s.link.frame bits).reason = none
          ∧ (p.slotEvent k s.link.frame bits).pickup.state = .fault
          ∧ (p.slotEvent k s.link.frame bits).pickup.goodRun = 0))
    ∧ (∀ p : Pickup, p.state = .fault → p.lastLiveness = none → p.goodRun < 4 →
      (slotGood bits = true →
        (p.slotEvent k s.link.frame bits).reason = none
          ∧ (p.slotEvent k s.link.frame bits).onset = none
          ∧ (p.slotEvent k s.link.frame bits).pickup.state = .fault
          ∧ (p.slotEvent k s.link.frame bits).pickup.goodRun = (if slotCode bits = 15 then 0 else p.goodRun)
          ∧ (p.slotEvent k s.link.frame bits).pickup.stuckRun = p.stuckRun
          ∧ (p.slotEvent k s.link.frame bits).pickup.lastLiveness = some (slotLiveness bits)
          ∧ (p.slotEvent k s.link.frame bits).pickup.lastCode = some (slotCode bits))
      ∧ (slotGood bits = false →
        (p.slotEvent k s.link.frame bits).reason = none
          ∧ (p.slotEvent k s.link.frame bits).pickup.state = .fault
          ∧ (p.slotEvent k s.link.frame bits).pickup.goodRun = 0))
    ∧ (∀ p : Pickup, p.state = .disabled ∨ p.state = .silent →
      p.slotEvent k s.link.frame bits =
        { pickup := { p with
            quiet := if p.lst.present then 0 else min 2 (p.quiet + 1),
            lst := { present := false, value := 0 } },
          reason := none, onset := none })
    ∧ (∀ (b : Fin 96) (lst : LstSlot), lst = (s.link.pickups[k]).lst → lst.value < 128 →
      (b.val = 8 * k.val → s.link.lstLevel b = lst.present)
      ∧ (∀ j : Nat, j < 7 → b.val = 8 * k.val + 1 + j → s.link.lstLevel b = lst.value.testBit (6 - j))
      ∧ (lfsLevel b = true ↔ b.val = 0))

/-- The setup handshake, phase by phase. LEAD-IN and ENDING go by the quiet count alone, at a good slot and at a
parity failure: at 2 a LEAD-IN becomes AWAITING re-arm, and an ENDING ends the message, with the pickup LISTENING and
reason SETUP_DONE (R75, R79). AWAITING re-arm: ack active clears the inactive run and counts the frame; ack inactive
re-arms into SENDING and counts it (R76, R81). SENDING: the second ack active in a row acknowledges the value, with
GAP and the next value index or, after the last value, ENDING; the first counts a frame; ack inactive raises the
inactive run and counts a frame (R77, R81). GAP: ack active leads to AWAITING re-arm, ack inactive into SENDING, and
neither counts a frame (R78). The second ack inactive in a row, once a value has been acknowledged, aborts the message
into SILENT in AWAITING re-arm, SENDING and GAP (R80); that the abort comes before the timeout of the same slot is the
model's choice (log entry 16). A parity failure counts the frame in AWAITING re-arm and SENDING with the phase kept,
and leads from GAP to AWAITING re-arm (R76 to R78, R81; its ack runs were cleared by R67). The fiftieth frame of one
value without its acknowledgement makes the timeout due (R81; that it is taken as an event of its own is the model's,
log entry 27). A SLOT_EVENT of a pickup in CONFIGURING takes the slot into its health first: a good slot that faults it
(R62, R66, R68), or a parity failure that is the eighth in a row (R67, R68), abandons the handshake; any other good
slot takes the handshake's step with its ack, and any other parity failure the step without, both ack runs at 0 (R66,
R67). The quiet count goes by what the LST slot carried (R63, R75), and what it carries next by the state and the phase
that the slot leaves: the value in AWAITING re-arm and SENDING, and nothing otherwise (R63). -/
def Obligations.HandshakeInSending : Prop :=
  ∀ (p : Pickup) (h counted : Handshake),
    counted = (if h.frames + 1 < 50 then { h with frames := h.frames + 1 }
      else { h with timeoutDue := true }) →
    (h.phase = .sending →
      (h.active + 1 = 2 → h.index < p.entry.count →
        p.handshakeGood h true =
          { pickup := { p with handshake := some { h with
              phase := .gap, index := h.index + 1, active := 0, inactive := 0, ackedOnce := true,
              frames := 0 } },
            reason := none, onset := none })
      ∧ (h.active + 1 = 2 → p.entry.count ≤ h.index →
        p.handshakeGood h true =
          { pickup := { p with handshake := some { h with
              phase := .ending, active := 0, inactive := 0, ackedOnce := true, frames := 0 } },
            reason := none, onset := none })
      ∧ (h.active = 0 → h.frames + 1 < 50 →
        p.handshakeGood h true =
          { pickup := { p with handshake := some { h with
              active := 1, inactive := 0, frames := h.frames + 1 } },
            reason := none, onset := none })
      ∧ (h.active = 0 → 50 ≤ h.frames + 1 →
        p.handshakeGood h true =
          { pickup := { p with handshake := some { h with
              active := 1, inactive := 0, timeoutDue := true } },
            reason := none, onset := none }))
    ∧ (h.phase = .awaiting →
      p.handshakeGood h true =
        { pickup := { p with handshake := some { counted with inactive := 0 } },
          reason := none, onset := none })
    ∧ (h.phase = .gap →
      p.handshakeGood h true =
        { pickup := { p with handshake := some { h with inactive := 0, phase := .awaiting } },
          reason := none, onset := none })
    ∧ ((h.phase = .awaiting ∨ h.phase = .sending ∨ h.phase = .gap) →
      (h.ackedOnce = true → h.inactive = 1 →
        (p.handshakeGood h false).reason = some .abort
          ∧ (p.handshakeGood h false).pickup.state = .silent
          ∧ (p.handshakeGood h false).pickup.handshake = none
          ∧ (p.handshakeGood h false).pickup.parityRun = 0
          ∧ (p.handshakeGood h false).pickup.stuckRun = 0
          ∧ (p.handshakeGood h false).pickup.lastLiveness = none
          ∧ (p.handshakeGood h false).pickup.lastCode = none
          ∧ (p.handshakeGood h false).pickup.entry = p.entry)
      ∧ (h.ackedOnce = false ∨ h.inactive = 0 →
        p.handshakeGood h false =
          { pickup := { p with
              handshake := some { (if h.phase = .gap then h else counted) with
                phase := .sending, active := 0, inactive := min 2 (h.inactive + 1) } },
            reason := none, onset := none }))
    ∧ (∀ ack, h.phase = .leadIn →
      (p.quiet = 2 →
        p.handshakeGood h ack =
          { pickup := { p with handshake := some { h with phase := .awaiting } },
            reason := none, onset := none }
        ∧ p.handshakeParity h = p.handshakeGood h ack)
      ∧ (p.quiet ≠ 2 →
        p.handshakeGood h ack = { pickup := p, reason := none, onset := none }
        ∧ p.handshakeParity h = p.handshakeGood h ack))
    ∧ (∀ ack, h.phase = .ending →
      (p.quiet = 2 →
        p.handshakeGood h ack =
          { pickup := { p with state := .listening, handshake := none },
            reason := some .setupDone, onset := none }
        ∧ p.handshakeParity h = p.handshakeGood h ack)
      ∧ (p.quiet ≠ 2 →
        p.handshakeGood h ack = { pickup := p, reason := none, onset := none }
        ∧ p.handshakeParity h = p.handshakeGood h ack))
    ∧ ((h.phase = .awaiting ∨ h.phase = .sending) →
      p.handshakeParity h =
        { pickup := { p with handshake := some counted }, reason := none, onset := none })
    ∧ (h.phase = .gap →
      p.handshakeParity h =
        { pickup := { p with handshake := some { h with phase := .awaiting } },
          reason := none, onset := none })
    ∧ (∀ (k : PickupNo) (now : Frame) (bits : BitVec 8) (r step : PickupResult) (good failed : Pickup)
        (quiet stuck : Nat) (coded : Prop),
      p.state = .configuring → p.handshake = some h → r = p.slotEvent k now bits →
      quiet = (if p.lst.present then 0 else min 2 (p.quiet + 1)) →
      stuck = (match p.lastLiveness with
        | none => p.stuckRun
        | some l => if slotLiveness bits = (l + 1) % 4 then 0 else min 4 (p.stuckRun + 1)) →
      coded = (slotCode bits = 15 ∧ p.lastCode = some 15) →
      good = { p with
        quiet := quiet, parityRun := 0, stuckRun := stuck, lastLiveness := some (slotLiveness bits),
        lastCode := some (slotCode bits) } →
      failed = { p with
        quiet := quiet, parityRun := p.parityRun + 1, stuckRun := 0, goodRun := 0, lastLiveness := none,
        lastCode := none, candidate := none, handshake := some { h with active := 0, inactive := 0 } } →
      (slotGood bits = true → ¬ coded → stuck ≠ 4 → step = good.handshakeGood h (slotAck bits) →
        r = { step with pickup := { step.pickup with lst := r.pickup.lst } })
      ∧ (slotGood bits = true → (coded ∨ stuck = 4) →
        (coded → r.reason = some .faultCode) ∧ (¬ coded → r.reason = some .stuck) ∧ r.onset = none
        ∧ r.pickup = { good with
            state := .fault, stuckRun := 0, goodRun := 0, candidate := none, handshake := none,
            lst := { present := false, value := 0 } })
      ∧ (slotGood bits = false → p.parityRun + 1 < 8 →
        step = failed.handshakeParity { h with active := 0, inactive := 0 } →
        r = { step with pickup := { step.pickup with lst := r.pickup.lst } })
      ∧ (slotGood bits = false → p.parityRun + 1 = 8 →
        r.reason = some .parity ∧ r.onset = none
        ∧ r.pickup = { failed with
            state := .fault, parityRun := 0, handshake := none, lst := { present := false, value := 0 } })
      ∧ (r.pickup.state ≠ .configuring → r.pickup.lst = { present := false, value := 0 })
      ∧ (∀ g, r.pickup.state = .configuring → r.pickup.handshake = some g →
        ((g.phase = .leadIn ∨ g.phase = .gap ∨ g.phase = .ending) →
          r.pickup.lst = { present := false, value := 0 })
        ∧ ((g.phase = .awaiting ∨ g.phase = .sending) →
          r.pickup.lst.present = true
          ∧ (g.index = 1 → r.pickup.lst.value = p.entry.value1)
          ∧ (g.index = 2 → r.pickup.lst.value = p.entry.value2)
          ∧ (g.index = 3 → r.pickup.lst.value = p.entry.value3)
          ∧ (g.index = 4 → r.pickup.lst.value = p.entry.value4))))

/-- A TIMEOUT of a pickup whose value frame count has come to 50: it enters SILENT, its health values and the
handshake are cleared, its LST slot carries nothing, a PICKUP report of reason TIMEOUT is raised, and the expiry
lag is recomputed (R70, R80, R81, R102). That the timeout is noted as due before it is taken is the model's
(log entry 27). -/
def Obligations.TimeoutSilencesPickup : Prop :=
  ∀ (k : PickupNo) (h : Handshake) (i : Installed) (p q : Pickup) (l : Link) (s : State),
    s.loader.installed = some i → p = s.link.pickups[k] → p.handshake = some h →
    h.timeoutDue = true →
    q = { entry := p.entry, state := .silent, parityRun := 0, stuckRun := 0, goodRun := 0,
          lastLiveness := none, lastCode := none, candidate := none, handshake := none,
          quiet := p.quiet, lst := { present := false, value := 0 } } →
    l = { s.link with pickups := s.link.pickups.set k q } →
    exec (.timeout k) s = .next
      { s with
        link := l,
        matcher := { s.matcher with lag := some (expiryLag l.largestDelay i.mergeSpan) },
        raised := s.raised ++ [s.reported .link (.pickup k p.state .silent .timeout)] }

/-! ### The cue matcher's and the tracker's own events -/

/-- A WAIT_EXPIRY that is due in WAITING (R110, R127): the first WAIT cue leaves with WAIT_EXPIRED, its slot
becomes FREE, the counts become 0, the position stays, and the tracker enters LEADING with the wait stamp that
remains, when no other WAIT cue stands at that stamp. -/
def Obligations.WaitExpiryEntersLeading : Prop :=
  ∀ (i : Installed) (e : CueEntry) (s : State), s.path.waiting = none →
    s.loader.installed = some i → s.matcher.expiryDue = true →
    s.matcher.announced = .waiting → s.tracker.state = .waiting →
    s.matcher.cues.find? (fun x => x.wait) = some e →
    s.tracker.position = e.stamp * 65536 → s.tracker.waitStamp = some e.stamp →
    leastWait (s.matcher.cues.filter (fun x => x.slot != e.slot)) ≠ some e.stamp →
    ∃ t, exec .waitExpiry s = .next t ∧
      sameButTraffic
        { s with
          matcher := { s.matcher with
            cues := s.matcher.cues.filter (fun x => x.slot != e.slot), capture := 0, miss := 0,
            timer := i.waitLimit, timerStopped := true, expiryDue := false, announced := .leading },
          tracker := { s.tracker with
            state := .leading, returnState := none, resume := false, awaitingClear := false,
            waitStamp := leastWait (s.matcher.cues.filter (fun x => x.slot != e.slot)) },
          admission := { s.admission with
            slots := Table.set .free s.admission.slots e.slot .free },
          fuser := { s.fuser with running := true },
          run := { s.run with announced := .leading },
          loader := { s.loader with announced := .leading },
          report := { s.report with refreshDue := true },
          raised := s.raised ++ [s.reported .matcher (.waitExpired e.slot e.stamp),
            s.reported .tracker (.state .waiting .leading .waitExpired)] } t

/-- The STALE_WAIT_CLEAR_ANSWER: the tracker takes the wait stamp that remains; still waiting in WINDING with no
wait stamp below the position it enters LEADING, and WAITING at once when the position stands on the wait
stamp (R130). That the answer is an event of its own after the removal is the model's (log entry 12). -/
def Obligations.ClearAnswerEntersLeading : Prop :=
  ∀ (s : State), s.path.waiting = none → s.loader.installed ≠ none → s.matcher.clearAnswer = true →
    s.tracker.awaitingClear = true → s.tracker.state = .winding → s.release.hold ≠ [] →
    (∀ w, s.matcher.waitStamp = some w → s.tracker.position ≤ w * 65536) →
    ∃ t, exec .staleWaitClearAnswer s = .next t
      ∧ t.matcher.clearAnswer = false ∧ t.tracker.awaitingClear = false
      ∧ t.tracker.waitStamp = s.matcher.waitStamp
      ∧ t.tracker.position = s.tracker.position ∧ t.tracker.tempo = s.tracker.tempo
      ∧ (t.tracker.state = if s.matcher.waitStamp.any (fun w => w * 65536 == s.tracker.position)
          then .waiting else .leading)
      ∧ t.matcher.cues = s.matcher.cues ∧ t.matcher.capture = 0 ∧ t.matcher.miss = 0
      ∧ t.fuser.running = true
      ∧ t.chest = (if s.tracker.resume then s.chest.requestSweep .revoice Divisions.all else s.chest)
      ∧ (∃ rest, t.raised = s.raised ++ s.reported .tracker (.state .winding .leading .windReady) :: rest)
      ∧ t.release = s.release ∧ t.mem = s.mem ∧ t.link = s.link

/-! ### The run controller's frame event -/

/-- The CANCEL sampler (R141): a held flag that is clear, with this sample and the one before asserted, makes
an assertion; one that is set, with both deasserted, a release; any other pair neither. A CANCEL_RELEASE clears
the held flag (R141). A HOLD_EXPIRY lowers WINDREQ: the hold timer stops at 0 and the wind becomes
UNREQUESTED (R144, R145). -/
def Obligations.CancelSampledAndReleased : Prop :=
  ∀ s : State,
    (∀ c w : Bool,
      (s.run.sample c w).cancelPrev = some c
        ∧ (s.run.sample c w).cancelHeld = s.run.cancelHeld
        ∧ ((s.run.sample c w).stage = .cancelAssert ↔
            s.run.cancelHeld = false ∧ c = true ∧ s.run.cancelPrev = some true)
        ∧ ((s.run.sample c w).stage = .cancelRelease ↔
            s.run.cancelHeld = true ∧ c = false ∧ s.run.cancelPrev = some false))
    ∧ (s.path.waiting = none → s.run.stage = .cancelRelease → s.run.announced = .idle →
      s.run.wind = .unrequested → s.run.limitRunning = false → s.run.holdRunning = false →
      ∃ t, exec .cancelRelease s = .next t ∧
        sameButTraffic
          { s with run := { s.run with cancelHeld := false, stage := .done } } t)
    ∧ (s.run.stage = .hold →
      exec .holdExpiry s = .next
        { s with
          run := { s.run with
            stage := .done, hold := 0, holdRunning := false, windReq := false, wind := .unrequested } })

/-- A CANCEL_ASSERT sets the held flag. In IDLE the tracker enters STOPPING with cause CANCEL and the OFF sweep
starts; in a run it acts as a STOP; in STOPPING the OFF sweep restarts; with no configuration installed nothing
more happens (R141, R142, R144). That COMMAND is raised before the STATE report is the model's choice (log entry
14); that a load from UNCONFIGURED counts as UNCONFIGURED until its installation only is its reading (log entry 31);
that WINDREQ stays high without a break at the last frame start of a hold is its choice (log entry 28). -/
def Obligations.CancelAssertTaken : Prop :=
  ∀ s : State, s.path.waiting = none → s.run.stage = .cancelAssert →
    s.run.announced = s.tracker.state →
    (s.loader.installed ≠ none →
      ∃ t, exec .cancelAssert s = .next t
        ∧ t.run.cancelHeld = true
        ∧ t.chest = s.chest.requestSweep .off Divisions.all
        ∧ t.chest.sweep = some { kind := .off, set := Divisions.all, division := 0, key := 0,
                                 passed := false }
        ∧ (s.tracker.state = .stopping →
            t.tracker = s.tracker ∧ t.release = s.release ∧ t.matcher = s.matcher
            ∧ t.raised = s.raised ++
                [s.reported .run (.command .cancel .accepted none .stopping 0 0)])
        ∧ (s.tracker.state ≠ .stopping →
            t.tracker = { s.tracker with
              state := .stopping, returnState := none, resume := false, awaitingClear := false,
              waitStamp := none }
            ∧ t.run.windReq = true ∧ t.run.limitRunning = false ∧ t.run.announced = .stopping
            ∧ t.admission.list = [] ∧ t.admission.fetch = none ∧ (∀ n, t.slot n = .free)
            ∧ t.release = { hold := [], starved := false }
            ∧ t.matcher.cues = [] ∧ t.fuser = { window := none, running := false }
            ∧ t.raised = s.raised ++
                [s.reported .run (.command .cancel .accepted none s.tracker.state 0 0),
                 s.reported .tracker (.state s.tracker.state .stopping .cancel)])
        ∧ t.mem = s.mem ∧ t.link = s.link ∧ t.path.writeBacks = s.path.writeBacks)
    ∧ (s.loader.installed = none → s.tracker.state = .idle →
      ∃ t, exec .cancelAssert s = .next t
        ∧ t.run.cancelHeld = true ∧ t.tracker = s.tracker ∧ t.raised = s.raised ∧ t.chest = s.chest
        ∧ t.mem = s.mem ∧ t.link = s.link)

/-- A WIND_CONFIRMED in WINDING: the wind is CONFIRMED, ready is reported once with a WIND record, and the limit
counter, which has risen at this frame start, stops (R145 to R147). With no wait stamp below the position the tracker
enters LEADING, or WAITING at once on the wait stamp; a resumed run requests a REVOICE of all divisions; a run that
begins with the hold queue empty is starved, with STARVED if the flag was clear (R32, R51, R130). With a wait stamp
below the position the tracker stays in WINDING and asks the cue matcher, which removes every WAIT cue below the
position with a WAIT_EXPIRED report each, and whose answer is then on its way (R130; that the answer is an event of
its own is the model's, log entry 12). That WIND is raised before STATE, and STARVED between the two STATE reports,
is the model's choice (log entry 14). -/
def Obligations.WindConfirmedEntersLeading : Prop :=
  ∀ s : State, s.path.waiting = none → s.loader.installed ≠ none → s.run.stage = .confirm →
    s.run.announced = .winding → s.tracker.state = .winding → s.run.readyReported = false →
    ((∀ w, s.tracker.waitStamp = some w → s.tracker.position ≤ w * 65536) →
      ∃ t, exec .windConfirmed s = .next t
        ∧ t.run.wind = .confirmed ∧ t.run.readyReported = true ∧ t.run.limitRunning = false
        ∧ t.run.limit = (if s.run.limitRunning then min 65535 (s.run.limit + 1) else s.run.limit)
        ∧ t.tracker.position = s.tracker.position ∧ t.tracker.tempo = s.tracker.tempo
        ∧ t.tracker.resume = false
        ∧ (t.tracker.state = if s.tracker.waitStamp.any (fun w => w * 65536 == s.tracker.position)
            then .waiting else .leading)
        ∧ t.fuser.running = true ∧ t.matcher.capture = 0 ∧ t.matcher.miss = 0
        ∧ t.chest = (if s.tracker.resume then s.chest.requestSweep .revoice Divisions.all else s.chest)
        ∧ t.raised = s.raised
          ++ [s.reported .run (.wind .ready),
              s.reported .tracker (.state .winding .leading .windReady)]
          ++ (if s.release.hold = [] ∧ s.release.starved = false then
              [s.reported .release (.starved .runBegan none)] else [])
          ++ (if s.tracker.waitStamp.any (fun w => w * 65536 == s.tracker.position) then
              [s.reported .tracker (.state .leading .waiting .waitReached)] else [])
        ∧ t.release = { s.release with starved := s.release.starved || s.release.hold.isEmpty }
        ∧ t.mem = s.mem ∧ t.link = s.link)
    ∧ (∀ (w : Nat) (stale : List CueEntry), s.tracker.waitStamp = some w →
      w * 65536 < s.tracker.position →
      stale = s.matcher.cues.filter
        (fun e => e.wait && decide (e.stamp * 65536 < s.tracker.position)) →
      ∃ t, exec .windConfirmed s = .next t
        ∧ t.run.wind = .confirmed ∧ t.run.readyReported = true ∧ t.run.limitRunning = false
        ∧ t.tracker = { s.tracker with awaitingClear := true }
        ∧ t.matcher = { s.matcher with
            clearAnswer := true,
            cues := s.matcher.cues.filter
              (fun e => !(e.wait && decide (e.stamp * 65536 < s.tracker.position))) }
        ∧ t.raised = s.raised ++ s.reported .run (.wind .ready)
          :: stale.map (fun e => s.reported .matcher (.waitExpired e.slot e.stamp))
        ∧ (∀ n, ¬ s.headsList n → t.slot n = Table.get .free
            (stale.foldl (fun m e => Table.set .free m e.slot .free) s.admission.slots) n)
        ∧ t.release = s.release ∧ t.chest = s.chest ∧ t.mem = s.mem ∧ t.link = s.link)

/-- A WIND_LIMIT in WINDING halts the run with a WIND record of the wind state at the limit: the counter stops,
the wind is UNCONFIRMED, WINDREQ stays as it was, and the MUTE sweep is requested (R131, R147), which the chest writer
takes by the sweep that runs (R47, R50, R52). That WIND is raised before the STATE report is the model's choice (log
entry 14), and so is what the request does under an OFF (log entry 32). -/
def Obligations.WindLimitHalts : Prop :=
  ∀ s : State, s.path.waiting = none → s.loader.installed ≠ none → s.run.stage = .limit →
    s.run.announced = .winding → s.tracker.state = .winding →
    ∃ t, exec .windLimit s = .next t
      ∧ t.tracker = { s.tracker with state := .halted, resume := false, awaitingClear := false }
      ∧ t.run.limitRunning = false ∧ t.run.wind = .unconfirmed ∧ t.run.windReq = s.run.windReq
      ∧ t.run.settle = 0
      ∧ t.chest = s.chest.requestSweep .mute Divisions.all ∧ s.chest.afterMute t.chest
      ∧ t.raised = s.raised ++ [s.reported .run (.wind (.limit s.run.wind)),
          s.reported .tracker (.state .winding .halted .windLimit)]
      ∧ t.release = s.release ∧ t.matcher.cues = s.matcher.cues ∧ t.fuser.window = none
      ∧ t.mem = s.mem ∧ t.link = s.link

/-- A WIND_DROP: the wind is UNCONFIRMED, with a WIND record of the tracker state (R148). In a running state, and in
WINDING after the ready report, it halts the run: the position, tempo, lag credit and return state are kept, the
queue, the cues and the counts are kept, the fusion window is abandoned, and the MUTE sweep is requested (R131, R148),
which the chest writer takes by the sweep that runs (R47, R50, R52; under an OFF, log entry 32). In WINDING before the
ready report, and in IDLE, HALTED and STOPPING, it gives its WIND record alone (R148). That WIND is raised before the
STATE report is the model's choice (log entry 14), and so is that a drop in IDLE comes before the fall of the hold
timer (log entry 28). -/
def Obligations.WindDropHalts : Prop :=
  ∀ s : State, s.path.waiting = none → s.loader.installed ≠ none → s.run.stage = .drop →
    s.run.announced = s.tracker.state →
    ((s.tracker.state.running = true ∨ s.tracker.state = .winding ∧ s.run.readyReported = true) →
      ∃ t, exec .windDrop s = .next t
        ∧ t.tracker = { s.tracker with state := .halted, resume := false, awaitingClear := false }
        ∧ t.run.wind = .unconfirmed ∧ t.run.windReq = s.run.windReq
        ∧ t.chest = s.chest.requestSweep .mute Divisions.all ∧ s.chest.afterMute t.chest
        ∧ t.release = s.release ∧ t.matcher.cues = s.matcher.cues
        ∧ t.matcher.capture = s.matcher.capture ∧ t.matcher.miss = s.matcher.miss
        ∧ t.fuser.window = none ∧ t.fuser.running = false
        ∧ t.raised = s.raised ++
            [s.reported .run (.wind (.dropped s.tracker.state)),
             s.reported .tracker (.state s.tracker.state .halted .windDrop)]
        ∧ t.mem = s.mem ∧ t.link = s.link)
    ∧ ((s.tracker.state = .idle ∨ s.tracker.state = .halted ∨ s.tracker.state = .stopping
        ∨ s.tracker.state = .winding ∧ s.run.readyReported = false
          ∧ s.run.windLast = some false) →
      ∃ t, exec .windDrop s = .next t
        ∧ t.tracker = s.tracker ∧ t.run.wind = .unconfirmed ∧ t.chest = s.chest
        ∧ t.raised = s.raised ++ [s.reported .run (.wind (.dropped s.tracker.state))])

/-! ### Release and the chest -/

/-- A RELEASE of a due head in a running state (R25, R28 to R32): with the release-history option set RELEASE is
raised first, with the lateness; a MARK raises its report; a TEMPO sets the tempo alone; a REGISTRATION changes the
mask, revoices an enabled division and requests the write-back. The head leaves the queue and its slot becomes
FREE; a queue left empty sets the starved flag, with STARVED if the flag was clear. That STARVED is raised last is
the model's choice (log entry 14). -/
def Obligations.ReleaseDispatchesByKind : Prop :=
  ∀ (i : Installed) (e : HoldEntry) (rest : List HoldEntry) (history starved : List Raised) (s : State),
    s.path.waiting = none →
    s.loader.installed = some i → s.release.hold = e :: rest →
    s.tracker.state.running = true → e.stamp * 65536 ≤ s.tracker.position →
    (∀ w, s.matcher.waitStamp = some w → e.stamp < w) →
    history = (if i.releaseHistory then
      [s.reported .release (.release e.slot e.kind e.division e.key
        (s.tracker.position / 65536 - e.stamp))] else []) →
    starved = (if rest = [] ∧ s.release.starved = false then
      [s.reported .release (.starved .released (some e.slot))] else []) →
    (e.kind = .mark →
      ∃ t, exec .release s = .next t ∧
        sameButTraffic
          { s with
            release := { hold := rest, starved := s.release.starved || rest.isEmpty },
            admission := { s.admission with
              slots := Table.set .free s.admission.slots e.slot .free },
            raised := s.raised ++ history ++ s.reported .release (.mark e.slot e.payload) :: starved } t)
    ∧ (e.kind = .tempo →
      ∃ t, exec .release s = .next t ∧
        sameButTraffic
          { s with
            release := { hold := rest, starved := s.release.starved || rest.isEmpty },
            admission := { s.admission with
              slots := Table.set .free s.admission.slots e.slot .free },
            tracker := { s.tracker with tempo := e.payload.toNat },
            raised := s.raised ++ history ++
              s.reported .tracker (.tempoSet e.slot e.payload.toNat s.tracker.tempo) :: starved } t)
    ∧ (e.kind = .registration →
      ∃ t, exec .release s = .next t ∧
        sameButTraffic
          { s with
            release := { hold := rest, starved := s.release.starved || rest.isEmpty },
            admission := { s.admission with
              slots := Table.set .free s.admission.slots e.slot .free },
            chest :=
              if (s.chest.division e.division).enabled = true then
                (s.chest.setMask e.division e.payload).requestSweep .revoice
                  (Divisions.single e.division)
              else s.chest.setMask e.division e.payload,
            path := { s.path with
              writeBacks := writeBackRequest e.division e.payload s.path.writeBacks },
            raised := s.raised ++ history ++ starved } t)

/-- A RELEASE of a NOTE_ON or NOTE_OFF that is due in a running state with at least 3 FIFO entries free: the chest
writer takes its note action whole (R25 to R27), what that does standing in NoteHoldsTaken; the head leaves the queue,
its slot becomes FREE, with the option set RELEASE is raised first with its lateness, then the reports of the note
action (R31), and a queue left empty is starved (R32). On an enabled division without couplers and with no sweep
running: NOTE_ON with the key silent and its repeat gap past: the holder count becomes 1 and one on-write of the
stop mask is queued (R27, R40, R42). NOTE_OFF with the key held once: the count becomes 0, the off-write's frame is
noted, and one off-write of 0 is queued (R27, R41). Both writes are inverted for reverse polarity (R36). With fewer
than 3 free FIFO entries, outside the running states, or not due, nothing is released (R24 to R26). That STARVED is
raised last is the model's choice (log entry 14). -/
def Obligations.ReleaseOfNotes : Prop :=
  ∀ (i : Installed) (e : HoldEntry) (rest : List HoldEntry) (history starved reports : List Raised)
    (s : State),
    s.path.waiting = none → s.loader.installed = some i → s.release.hold = e :: rest →
    (e.kind = .noteOn ∨ e.kind = .noteOff) →
    history = (if i.releaseHistory then
        [s.reported .release (.release e.slot e.kind e.division e.key
          (s.tracker.position / 65536 - e.stamp))] else []) →
    starved = (if rest = [] ∧ s.release.starved = false then
        [s.reported .release (.starved .released (some e.slot))] else []) →
    reports = history ++ starved →
    (s.tracker.state.running = false ∨ 14 ≤ s.fifoCount ∨ s.tracker.position < e.stamp * 65536
        ∨ (∃ w, s.matcher.waitStamp = some w ∧ w ≤ e.stamp) →
      exec .release s = .next s)
    ∧ (∀ r : Chest × List Report, s.tracker.state.running = true →
      e.stamp * 65536 ≤ s.tracker.position → (∀ w, s.matcher.waitStamp = some w → e.stamp < w) →
      s.fifoCount ≤ 13 →
      r = s.chest.noteAction i s.link.frame e.division e.key (e.kind == .noteOn) →
      ∃ t, exec .release s = .next t ∧
        sameButTraffic
          { s with
            release := { hold := rest, starved := s.release.starved || rest.isEmpty },
            admission := { s.admission with
              slots := Table.set .free s.admission.slots e.slot .free },
            chest := r.1,
            raised := s.raised ++ history ++ r.2.map (s.reported .chest) ++ starved } t)
    ∧ (∀ key : Nat, s.tracker.state.running = true →
      e.stamp * 65536 ≤ s.tracker.position → (∀ w, s.matcher.waitStamp = some w → e.stamp < w) →
      s.fifoCount ≤ 13 → (s.chest.division e.division).enabled = true →
      (s.chest.division e.division).couplerA = none → (s.chest.division e.division).couplerB = none →
      (e.key : Int) + (s.chest.division e.division).transpose = key → key < compass e.division →
      s.chest.sweep = none →
      (∀ last : Option Frame, e.kind = .noteOn →
        s.chest.sound e.division key
          = { holders := 0, pendingOn := false, due := false, lastOff := last } →
        (∀ f, last = some f → i.repeatGap ≤ (s.link.frame - f).toNat) →
        ∃ t, exec .release s = .next t ∧
          sameButTraffic
            { s with
              release := { hold := rest, starved := s.release.starved || rest.isEmpty },
              admission := { s.admission with
                slots := Table.set .free s.admission.slots e.slot .free },
              chest := { s.chest with
                sounding := Table.set SoundEntry.quiet s.chest.sounding (64 * e.division.val + key)
                  { holders := 1, pendingOn := false, due := false, lastOff := last },
                fifo := s.chest.fifo ++
                  [{ address := i.chestBase + 64 * e.division.val + key,
                     stored := if (s.chest.division e.division).reverse then
                         ~~~(s.chest.division e.division).stopMask
                       else (s.chest.division e.division).stopMask,
                     on := true, sweep := false }] },
              raised := s.raised ++ reports } t)
      ∧ (∀ last : Option Frame, e.kind = .noteOff →
        s.chest.sound e.division key
          = { holders := 1, pendingOn := false, due := false, lastOff := last } →
        ∃ t, exec .release s = .next t ∧
          sameButTraffic
            { s with
              release := { hold := rest, starved := s.release.starved || rest.isEmpty },
              admission := { s.admission with
                slots := Table.set .free s.admission.slots e.slot .free },
              chest := { s.chest with
                sounding := Table.set SoundEntry.quiet s.chest.sounding (64 * e.division.val + key)
                  { holders := 0, pendingOn := false, due := false, lastOff := some s.link.frame },
                fifo := s.chest.fifo ++
                  [{ address := i.chestBase + 64 * e.division.val + key,
                     stored := if (s.chest.division e.division).reverse then 0xFFFF else 0,
                     on := false, sweep := false }] },
              raised := s.raised ++ reports } t))

/-- The holds of a note action (R40, R41). On: at a count of 7 HOLDER_OVERFLOW and no change; from 1 to 6 the count
rises and nothing is queued; at 0 a running MUTE queues nothing and the division joins its union (R52), a key
within its repeat gap becomes pending-on with nothing queued (R42), and else one on-write of the stop mask of the
entry's own division is queued. Off: at 0 UNMATCHED_OFF for the direct hold alone; from 2 the count falls; at 1 a
pending-on flag is cleared without a write, a running MUTE queues nothing, the last-off frame as it was, and else
one off-write of 0 is queued and the last-off frame is the frame of release. A disabled division has no holds, and
a direct key outside the compass has none; an enabled division's holds are the direct key's, coupler A's and coupler
B's in that order, each within its compass and each coupler only to an enabled target (R39). A note action on keys
that are all silent, or all held once, queues the writes of its holds in that order, at most three (R45). -/
def Obligations.NoteHoldsTaken : Prop :=
  ∀ (i : Installed) (now : Frame) (key : Nat) (h : NoteHold) (c : Chest) (e : SoundEntry)
    (stored : Word → Word),
    e = c.sound h.division h.key →
    (∀ v, stored v = if (c.division h.division).reverse then ~~~v else v) →
    (7 ≤ e.holders → Chest.holdOn i now h c = (c, [.holderOverflow h.division h.key h.coupled]))
    ∧ (1 ≤ e.holders → e.holders ≤ 6 →
      Chest.holdOn i now h c = (c.setSound h.division h.key { e with holders := e.holders + 1 }, []))
    ∧ (∀ w, e.holders = 0 → c.sweep = some w → w.kind = .mute →
      Chest.holdOn i now h c
        = ({ c.setSound h.division h.key { e with holders := 1 } with
              union := c.union.join (Divisions.single h.division) }, []))
    ∧ (∀ f, e.holders = 0 → (∀ w, c.sweep = some w → w.kind ≠ .mute) → e.lastOff = some f →
      (now - f).toNat < i.repeatGap →
      Chest.holdOn i now h c
        = (c.setSound h.division h.key { e with holders := 1, pendingOn := true, due := false }, []))
    ∧ (e.holders = 0 → (∀ w, c.sweep = some w → w.kind ≠ .mute) →
      (∀ f, e.lastOff = some f → i.repeatGap ≤ (now - f).toNat) →
      Chest.holdOn i now h c
        = ({ c.setSound h.division h.key { e with holders := 1 } with
              fifo := c.fifo ++
                [{ address := i.chestBase + 64 * h.division.val + h.key,
                   stored := stored (c.division h.division).stopMask, on := true, sweep := false }] },
           []))
    ∧ (e.holders = 0 →
      Chest.holdOff i now key h c
        = (c, if h.coupled then [] else [.unmatchedOff h.division key h.key]))
    ∧ (2 ≤ e.holders →
      Chest.holdOff i now key h c
        = (c.setSound h.division h.key { e with holders := e.holders - 1 }, []))
    ∧ (e.holders = 1 → e.pendingOn = true →
      Chest.holdOff i now key h c
        = (c.setSound h.division h.key { e with holders := 0, pendingOn := false, due := false }, []))
    ∧ (∀ w, e.holders = 1 → e.pendingOn = false → c.sweep = some w → w.kind = .mute →
      Chest.holdOff i now key h c
        = ({ c.setSound h.division h.key { e with holders := 0 } with
              union := c.union.join (Divisions.single h.division) }, []))
    ∧ (e.holders = 1 → e.pendingOn = false → (∀ w, c.sweep = some w → w.kind ≠ .mute) →
      Chest.holdOff i now key h c
        = ({ c.setSound h.division h.key { e with holders := 0, lastOff := some now } with
              fifo := c.fifo ++
                [{ address := i.chestBase + 64 * h.division.val + h.key,
                   stored := stored 0, on := false, sweep := false }] },
           []))
    ∧ (∀ (d : Division) (on : Bool), (c.division d).enabled = false →
      c.noteAction i now d key on = (c, []))
    ∧ (∀ d : Division,
      ((key : Int) + (c.division d).transpose < 0
        ∨ (compass d : Int) ≤ key + (c.division d).transpose) →
      ∀ x ∈ c.noteHolds d key, x.coupled = true)
    ∧ (∀ (d : Division) (k : Int) (coupled : Option Coupler → List NoteHold),
      (c.division d).enabled = true → k = (key : Int) + (c.division d).transpose →
      (∀ o, coupled o = match o with
        | none => []
        | some x =>
          if (c.division x.target).enabled = true ∧ 0 ≤ k + x.offset
              ∧ k + x.offset < (compass x.target : Int) then
            [{ division := x.target, key := (k + x.offset).toNat, coupled := true }]
          else []) →
      c.noteHolds d key =
        (if 0 ≤ k ∧ k < (compass d : Int) then
          [{ division := d, key := k.toNat, coupled := false }] else [])
        ++ coupled (c.division d).couplerA ++ coupled (c.division d).couplerB)
    ∧ (∀ (d : Division) (holds : List NoteHold) (out : Word → Bool → NoteHold → FifoEntry),
      holds = c.noteHolds d key →
      (holds.map (fun x => (x.division, x.key))).Nodup → (∀ w, c.sweep = some w → w.kind ≠ .mute) →
      (∀ v on x, out v on x =
        { address := i.chestBase + 64 * x.division.val + x.key,
          stored := if (c.division x.division).reverse then ~~~v else v, on := on, sweep := false }) →
      holds.length ≤ 3
      ∧ ((∀ x ∈ holds, (c.sound x.division x.key).holders = 0
            ∧ ∀ f, (c.sound x.division x.key).lastOff = some f → i.repeatGap ≤ (now - f).toNat) →
        (c.noteAction i now d key true).1.fifo
            = c.fifo ++ holds.map (fun x => out (c.division x.division).stopMask true x)
          ∧ (c.noteAction i now d key true).2 = []
          ∧ ∀ x ∈ holds, (c.noteAction i now d key true).1.sound x.division x.key
              = { c.sound x.division x.key with holders := 1 })
      ∧ ((∀ x ∈ holds, (c.sound x.division x.key).holders = 1
            ∧ (c.sound x.division x.key).pendingOn = false) →
        (c.noteAction i now d key false).1.fifo = c.fifo ++ holds.map (out 0 false)
          ∧ (c.noteAction i now d key false).2 = []
          ∧ ∀ x ∈ holds, (c.noteAction i now d key false).1.sound x.division x.key
              = { c.sound x.division x.key with holders := 0, lastOff := some now }))

/-- A REPEAT_GAP_DUE makes due exactly the pending-on entries whose frames since their last off-write have
reached RepeatGap, and changes nothing else. A PENDING_ON_WRITE queues the on-write of the first due entry with
the mask as it now stands, and clears its pending-on flag, when a FIFO entry is free and the release engine
does not wait for space; otherwise nothing is queued (R43, R46). -/
def Obligations.PendingOnDueThenWritten : Prop :=
  ∀ (i : Installed) (s : State), s.loader.installed = some i → s.tablesCanonical = true →
    (∃ t, exec .repeatGapDue s = .next t
      ∧ t = { s with chest := { s.chest with sounding := t.chest.sounding } }
      ∧ ∀ (d : Division) (k : Nat),
          t.chest.sound d k =
            (if (s.chest.sound d k).pendingOn = true
                ∧ (∀ f, (s.chest.sound d k).lastOff = some f →
                    i.repeatGap ≤ (s.link.frame - f).toNat) then
              { s.chest.sound d k with due := true }
            else s.chest.sound d k))
    ∧ ∀ (d : Division) (k : Nat), s.chest.firstDue = some (d, k) →
      (s.path.waiting = none → s.fifoCount < 16 → s.releaseWaiting = false →
        ∃ t, exec .pendingOnWrite s = .next t ∧
          sameButTraffic
            { s with
              chest := { s.chest with
                sounding := Table.set SoundEntry.quiet s.chest.sounding (64 * d.val + k)
                  { s.chest.sound d k with pendingOn := false, due := false },
                fifo := s.chest.fifo ++
                  [{ address := i.chestBase + 64 * d.val + k,
                     stored := if (s.chest.division d).reverse then ~~~(s.chest.division d).stopMask
                       else (s.chest.division d).stopMask,
                     on := true, sweep := false }] } } t)
      ∧ (16 ≤ s.fifoCount ∨ s.releaseWaiting = true → exec .pendingOnWrite s = .next s)

/-- A SWEEP_WRITE queues the write of the sweep's next key and advances, when nothing ahead of it wants the space
(R46, R48): an off-write of 0 in an OFF or MUTE sweep (R49, R50); in a REVOICE an on-write of the stop mask for a held
key that is not pending-on, else an off-write (R51). The sweep goes on to the next key of the division; after the last
key of a division it goes to key 0 of the next that it covers, which is every division in an OFF and a MUTE and an
enabled division of its set in a REVOICE; with none left it has passed its last key (R48, R49 to R51). With no free
entry, with a due pending-on entry, or while the release engine waits for space nothing is queued; it waits from the
moment that a due note at the head of the queue finds fewer than 3 entries free until that note is released, however
far the FIFO drains meanwhile (R26, R46). -/
def Obligations.SweepWriteQueued : Prop :=
  ∀ (i : Installed) (w : Sweep) (on : Bool) (s : State), s.path.waiting = none →
    s.loader.installed = some i → s.chest.sweep = some w → w.passed = false →
    on = (w.kind == .revoice && (s.chest.sound w.division w.key).holders != 0
      && !(s.chest.sound w.division w.key).pendingOn) →
    (s.chest.firstDue = none → s.fifoCount < 16 → s.releaseWaiting = false →
      ∃ t, exec .sweepWrite s = .next t ∧
      sameButTraffic
        { s with
          chest := { s.chest with
            sweep := some (s.chest.sweepAdvance w),
            fifo := s.chest.fifo ++
              [{ address := i.chestBase + 64 * w.division.val + w.key,
                 stored :=
                  (let logical := if on then (s.chest.division w.division).stopMask else 0
                   if (s.chest.division w.division).reverse then ~~~logical else logical),
                 on := on, sweep := true }] } } t)
    ∧ (w.key + 1 < compass w.division → s.chest.sweepAdvance w = { w with key := w.key + 1 })
    ∧ (compass w.division ≤ w.key + 1 → ∀ covered : Division → Prop,
      covered = (fun d => w.kind = .revoice → s.chest.revoices w.set d) →
      (∀ d, w.division < d → covered d → (∀ x, w.division < x → x < d → ¬ covered x) →
        s.chest.sweepAdvance w = { w with division := d, key := 0 })
      ∧ ((∀ d, w.division < d → ¬ covered d) → s.chest.sweepAdvance w = { w with passed := true }))
    ∧ (compass w.division ≤ w.key + 1 → w.division = 3 →
      s.chest.sweepAdvance w = { w with passed := true })
    ∧ (s.chest.firstDue ≠ none ∨ 16 ≤ s.fifoCount ∨ s.releaseWaiting = true →
      exec .sweepWrite s = .next s)
    ∧ (∀ (e : HoldEntry) (rest : List HoldEntry), s.release.hold = e :: rest →
      (e.kind = .noteOn ∨ e.kind = .noteOff) → s.tracker.state.running = true →
      e.stamp * 65536 ≤ s.tracker.position → (∀ x, s.matcher.waitStamp = some x → e.stamp < x) →
      (14 ≤ s.fifoCount ∨ s.spaceWait = some e.order) →
      exec .sweepWrite s = .next s ∧ s.waitsFor = some e.order)

/-- A SWEEP_END of a sweep whose writes are all in memory. OFF in STOPPING: the tracker comes to IDLE with cause
SWEEP_DONE, and the hold timer starts, or with WindHold 0 WINDREQ falls (R48, R133, R144); so too while a load is
still reading (R142); with a load deferred, the entry into IDLE begins it in the same event, with every collection
emptied (R158, R162). OFF that the loader waits for, its load installed: the state is CONFIGURED, the stop-mask values
held become mask changes, and the pickups of the commits noted are listed for their fetches (R160), ahead of the
tracker's entry into IDLE where it is in STOPPING (R142; log entry 14). MUTE: a nonempty union becomes a REVOICE of it
(R52). REVOICE: nothing more. What a REVOICE request does, here and wherever one is made, by the sweep that runs, is
stated for every chest and set (R48, R51, R52). A sweep that has not passed its last key, or has a write still queued,
has not ended (R48). What the run controller's frame event has left over is taken before the end of an OFF sweep, here
with nothing left (log entry 28). That the admission order, which starts afresh (R19), starts at 0 is the model's
choice (log entry 5). -/
def Obligations.SweepEndTaken : Prop :=
  ∀ (i : Installed) (w : Sweep) (idle : RunControl) (divisions : Vector DivisionSettings 4)
    (fetches : List PickupFetch) (s : State), s.path.waiting = none →
    s.loader.installed = some i → s.chest.sweep = some w →
    idle = (if i.windHold = 0 then
        { s.run with announced := .idle, hold := 0, holdRunning := false, windReq := false,
                     wind := .unrequested }
      else { s.run with announced := .idle, hold := i.windHold * 1000, holdRunning := true }) →
    divisions = Vector.ofFn (fun d : Division =>
      match s.loader.heldMasks[d] with
      | none => s.chest.divisions[d]
      | some v => { s.chest.divisions[d] with stopMask := v }) →
    fetches = (List.finRange 12).filterMap (fun k : PickupNo =>
      (s.loader.noted[k]).map (fun v => { pickup := k, carried := v })) →
    (∀ (c : Chest) (set : Divisions), c.afterRevoice set (c.requestSweep .revoice set))
    ∧ ((w.passed = false ∨ ∃ e ∈ s.chest.fifo, e.sweep = true) → exec .sweepEnd s = .next s)
    ∧ (w.passed = true → (∀ e ∈ s.chest.fifo, e.sweep = false) →
      (w.kind = .off → s.run.stage = .done → s.tracker.state = .stopping →
        ((s.loader.config = .configured ∨ s.loader.config = .loading ∧ s.loader.load ≠ none) →
          ∃ t, exec .sweepEnd s = .next t ∧
            sameButTraffic
              { s with
                chest := { s.chest with sweep := none },
                tracker := { s.tracker with state := .idle },
                matcher := { s.matcher with announced := .idle, expiryDue := false },
                fuser := { window := none, running := false },
                loader := { s.loader with announced := .idle },
                run := idle,
                report := { s.report with refreshDue := true },
                raised := s.raised ++ [s.reported .tracker (.state .stopping .idle .sweepDone)] } t)
        ∧ (s.loader.config = .deferred →
          ∃ t, exec .sweepEnd s = .next t ∧
            sameButTraffic
              { s with
                path := { s.path with
                  port := (match s.path.port with
                    | some (.fetchRead a _) => some (.fetchRead a true)
                    | q => abandonForLoad q),
                  writeBacks := [] },
                chest := { s.chest with sweep := none, fifo := [], union := Divisions.none },
                tracker := { s.tracker with state := .idle, waitStamp := none },
                matcher := { s.matcher with
                  announced := .idle, expiryDue := false, cues := [], capture := 0, miss := 0,
                  timer := 0 },
                fuser := { window := none, running := false },
                admission :=
                  { slots := [], list := [], fetch := none, nextOrder := 0,
                    request := s.admission.request.map (fun r => { r with discard := true }) },
                release := { hold := [], starved := false },
                loader := { s.loader with
                  announced := .idle, config := .loading, load := some [],
                  heldMasks := Vector.replicate 4 none, noted := Vector.replicate 12 none,
                  pickupList := [], pickupGot := [] },
                run := { idle with markLow := false, markHigh := false, markNominal := false },
                report := { s.report with refreshDue := true },
                raised := s.raised ++ [s.reported .tracker (.state .stopping .idle .sweepDone)] } t)
        ∧ (s.loader.config = .loading → s.loader.load = none →
          ∃ t, exec .sweepEnd s = .next t ∧
            sameButTraffic
              { s with
                chest := { s.chest with sweep := none, divisions := divisions },
                tracker := { s.tracker with state := .idle },
                matcher := { s.matcher with announced := .idle, expiryDue := false },
                fuser := { window := none, running := false },
                loader := { s.loader with
                  announced := .idle, config := .configured, load := none,
                  heldMasks := Vector.replicate 4 none, noted := Vector.replicate 12 none,
                  pickupList := fetches, pickupGot := [] },
                run := idle,
                report := { s.report with refreshDue := true },
                raised := s.raised ++ [s.reported .tracker (.state .stopping .idle .sweepDone)] } t))
      ∧ (w.kind = .off → s.run.stage = .done → s.tracker.state = .idle →
        s.loader.config = .loading → s.loader.load = none →
        ∃ t, exec .sweepEnd s = .next t ∧
          sameButTraffic
            { s with
              chest := { s.chest with sweep := none, divisions := divisions },
              loader := { s.loader with
                config := .configured, load := none, heldMasks := Vector.replicate 4 none,
                noted := Vector.replicate 12 none, pickupList := fetches, pickupGot := [] },
              report := { s.report with refreshDue := true } } t)
      ∧ (w.kind = .mute →
        ∃ t, exec .sweepEnd s = .next t ∧
          sameButTraffic
            { s with
              chest :=
                if s.chest.union = Divisions.none then { s.chest with sweep := none }
                else Chest.requestSweep .revoice s.chest.union
                  { s.chest with sweep := none, union := Divisions.none } } t)
      ∧ (w.kind = .revoice →
        ∃ t, exec .sweepEnd s = .next t ∧
          sameButTraffic { s with chest := { s.chest with sweep := none } } t))

/-! ### The report writer -/

/-- A REPORT_TAKEN appends the block's oldest report, wherever it stands among those of other blocks, to a queue of 15
records or fewer; a queue of 16 leaves it unqueued, and the lost count and lost total rise by 1, not above 65 535 (R165,
R168). Reports of different blocks come in either order but for the pairs that a rule orders, and there the later one
is not taken while the earlier one stands (R31, R108, R138; log entry 13). A row for a block with no report changes
nothing (log entry 1). With the numbers of an accepted START on their way and no other report of the run controller
standing, they come, and the COMMAND report is raised with them and taken; while the STATE of that START, or of a STOP
or CANCEL since, is not taken, it is not (R138). That the numbers come at this row is the model's choice (log entry
30). -/
def Obligations.ReportTakenOrLost : Prop :=
  (∀ (b : Block) (before : List Raised) (r : Raised) (rest : List Raised) (s : State),
    s.raised = before ++ r :: rest → (∀ x ∈ before, x.block ≠ b) → r.block = b →
    ((∀ x ∈ before, ¬ x.record.report.comesBefore r.record.report) → s.report.queue.length < 16 →
      exec (.reportTaken b) s = .next
        { s with
          raised := before ++ rest,
          report := { s.report with queue := s.report.queue ++ [r.record] } })
    ∧ ((∀ x ∈ before, ¬ x.record.report.comesBefore r.record.report) → 16 ≤ s.report.queue.length →
      exec (.reportTaken b) s = .next
        { s with
          raised := before ++ rest,
          report := { s.report with
            lostCount := min 65535 (s.report.lostCount + 1),
            lostTotal := min 65535 (s.report.lostTotal + 1) } })
    ∧ ((∃ x ∈ before, x.record.report.comesBefore r.record.report) →
      exec (.reportTaken b) s = .next s))
  ∧ (∀ (b : Block) (s : State), (∀ x ∈ s.raised, x.block ≠ b) → (b = .run → s.run.startCounts = none) →
    exec (.reportTaken b) s = .next s)
  ∧ ∀ (h c : Nat) (s : State), s.run.startCounts = some (h, c) → s.loader.installed ≠ none →
    (∀ x ∈ s.raised, x.block ≠ .run) →
    ((∀ x ∈ s.raised, ∀ old new cause, x.record.report = .state old new cause →
        cause ≠ .start ∧ cause ≠ .stop ∧ cause ≠ .cancel) →
      s.report.queue.length < 16 →
      exec (.reportTaken .run) s = .next
        { s with
          run := { s.run with startCounts := none },
          report := { s.report with queue := s.report.queue ++
            [(s.reported .run (.command (.written 1) .accepted none .idle h c)).record] } })
    ∧ ((∃ x ∈ s.raised, ∃ old new cause, x.record.report = .state old new cause
        ∧ (cause = .start ∨ cause = .stop ∨ cause = .cancel)) →
      exec (.reportTaken .run) s = .next s)

/-- A RECORD_WRITE_BEGIN with no task in progress and no refresh due: with losses counted and room in the log
it begins a LOST record and the lost count becomes 0; else the queue's head begins at place P, or, with the
log full, leaves the queue counted (R166 to R168, R173). The eight words of a record of each kind are those of the table
of R178, in the codes of R176 and R179. -/
def Obligations.RecordWriteBegins : Prop :=
  (([.idle, .winding, .leading, .following, .coasting, .waiting, .halted, .stopping] : List TrackerState).map
      TrackerState.code = List.range 8
    ∧ ([.unconfigured, .loading, .configured, .deferred] : List ConfigState).map ConfigState.code = List.range 4
    ∧ ([.disabled, .configuring, .listening, .fault, .silent] : List PickupState).map PickupState.code
      = List.range 5
    ∧ ([.unrequested, .unconfirmed, .settling, .confirmed] : List WindState).map WindState.code = List.range 4
    ∧ ([.start, .resume, .windReady, .windLimit, .windDrop, .capture, .loss, .waitReached, .waitEnd,
        .waitExpired, .waitReleased, .rangeEnd, .stop, .cancel, .sweepDone] : List StateCause).map
      StateCause.code = List.range' 1 15
    ∧ ([.commit, .badEntry, .parity, .stuck, .faultCode, .recovered, .setupDone, .abort, .timeout] :
        List PickupReason).map PickupReason.code = List.range' 1 9
    ∧ ([.accepted, .refused, .unknown] : List CommandResult).map CommandResult.code = List.range' 1 3
    ∧ ([none, some .state, some .configuration, some .cancelHeld, some .stamp, some .tempo] :
        List (Option CommandReason)).map commandReasonCode = List.range 6
    ∧ ([.empty, .noteOn, .noteOff, .registration, .tempo, .mark, .cue] : List ScoreKind).map ScoreKind.code
      = List.range 7
    ∧ ([.check, .kind, .payload, .range] : List FormReason).map FormReason.code = List.range' 1 4
    ∧ ([.released, .withdrawn, .runBegan] : List StarvedCause).map StarvedCause.code = List.range' 1 3
    ∧ ([.chest, .log, .status] : List DropRegion).map DropRegion.code = List.range' 1 3)
  ∧ (∀ (r : Record) (n count : Nat → Word) (f : Bool → Nat),
    (∀ x, n x = BitVec.ofNat 16 x) → (∀ x, count x = BitVec.ofNat 16 (min x 65535)) →
    f true = 1 → f false = 0 →
    (∀ old new cause, r.report = .state old new cause →
      r.words = logRecord 1 0 (n (old.code + 16 * new.code)) (n cause.code) 0 r)
    ∧ (∀ slot e strength ks, r.report = .matched slot e strength ks →
      ∃ set : Word, (∀ b, set.getLsbD b = true ↔ ∃ k ∈ ks, k.val = b)
        ∧ r.words = logRecord 2 slot (BitVec.ofInt 16 e) (count strength) set r)
    ∧ (∀ slot stamp w wait anchor overtaken counted,
      r.report = .miss slot stamp w wait anchor overtaken counted →
      r.words = logRecord 3 slot (n stamp) (n (stamp / 65536))
        (n (w + 256 * f wait + 512 * f anchor + 1024 * f overtaken + 2048 * f counted)) r)
    ∧ (∀ fused strength ks trail, r.report = .stray fused strength ks trail →
      ∃ set : Word, (∀ b, set.getLsbD b = true ↔ ∃ k ∈ ks, k.val = b)
        ∧ r.words = logRecord 4 (r.frame - fused).toNat (count (r.position - trail)) (count strength) set r)
    ∧ (∀ slot kind d key late, r.report = .release slot kind d key late →
      r.words = logRecord 5 slot (n (kind.toScore.code + 8 * d.val + 32 * key)) (count late) 0 r)
    ∧ (∀ slot number, r.report = .mark slot number → r.words = logRecord 6 slot number 0 0 r)
    ∧ (∀ slot new old, r.report = .tempoSet slot new old →
      r.words = logRecord 7 slot (count new) (count old) 0 r)
    ∧ (∀ slot reason, r.report = .formError slot reason →
      r.words = logRecord 8 slot (n reason.code) 0 0 r)
    ∧ (∀ slot kind, r.report = .lateDiscard slot kind → r.words = logRecord 9 slot (n kind.code) 0 0 r)
    ∧ (∀ slot, r.report = .queueFull slot → r.words = logRecord 10 slot 0 0 0 r)
    ∧ (∀ slot, r.report = .cueFull slot → r.words = logRecord 11 slot 0 0 0 r)
    ∧ (∀ slot, r.report = .admitOverrun slot → r.words = logRecord 12 slot 0 0 0 r)
    ∧ (∀ slot kind, r.report = .withdrawn slot kind → r.words = logRecord 13 slot (n kind.code) 0 0 r)
    ∧ (∀ cause slot, r.report = .starved cause (some slot) →
      r.words = logRecord 14 slot (n cause.code) 0 0 r)
    ∧ (∀ cause, r.report = .starved cause none → r.words = logRecord 14 0 (n cause.code) 0 0 r)
    ∧ (∀ d key moved, r.report = .unmatchedOff d key moved →
      r.words = logRecord 15 0 (n d.val) (n key) (n moved) r)
    ∧ (∀ d key coupled, r.report = .holderOverflow d key coupled →
      r.words = logRecord 16 0 (n d.val) (n key) (n (f coupled)) r)
    ∧ (∀ address value region, r.report = .protectDrop address value region →
      r.words = logRecord 17 0 (n address) (n (address / 65536 % 4 + 16 * region.code)) value r)
    ∧ (∀ k old new reason, r.report = .pickup k old new reason →
      r.words = logRecord 18 k.val (n (old.code + 16 * new.code)) (n reason.code) 0 r)
    ∧ (r.report = .wind .ready → r.words = logRecord 19 0 1 0 0 r)
    ∧ (∀ wind, r.report = .wind (.limit wind) → r.words = logRecord 19 0 2 (n wind.code) 0 r)
    ∧ (∀ state, r.report = .wind (.dropped state) → r.words = logRecord 19 0 3 (n state.code) 0 r)
    ∧ (r.report = .anchor .deferred → r.words = logRecord 20 1 0 0 0 r)
    ∧ (∀ slots logs abandoned, r.report = .anchor (.loaded slots logs abandoned) →
      r.words = logRecord 20 2 (count slots) (count logs) (count abandoned) r)
    ∧ (r.report = .anchor (.invalid .signature) → r.words = logRecord 20 3 1 0 0 r)
    ∧ (∀ sum, r.report = .anchor (.invalid (.check sum)) → r.words = logRecord 20 3 2 (count sum) 0 r)
    ∧ (∀ word, r.report = .anchor (.invalid (.range word)) → r.words = logRecord 20 3 3 (count word) 0 r)
    ∧ (r.report = .anchor (.invalid .limits) → r.words = logRecord 20 3 4 0 0 r)
    ∧ (r.report = .anchor (.invalid .region) → r.words = logRecord 20 3 5 0 0 r)
    ∧ (∀ value result reason state h c, r.report = .command (.written value) result reason state h c →
      r.words = logRecord 21 0 value
        (n (result.code + 4 * commandReasonCode reason + 32 * state.code))
        (n (min h 511 + 512 * min c 127)) r)
    ∧ (∀ result reason state h c, r.report = .command .cancel result reason state h c →
      r.words = logRecord 21 0 0
        (n (result.code + 4 * commandReasonCode reason + 32 * state.code + 256)) 0 r)
    ∧ (∀ lost, r.report = .lost lost → r.words = logRecord 22 0 (count lost) 0 0 r)
    ∧ (∀ slot stamp, r.report = .waitExpired slot stamp →
      r.words = logRecord 23 slot (n stamp) (n (stamp / 65536)) 0 r)
    ∧ (∀ old tempo, r.report = .rangeEnd old tempo →
      r.words = logRecord 24 0 (n old) (n (old / 65536)) (count tempo) r)) ∧
  ∀ (i : Installed) (s : State), s.path.waiting = none → s.loader.installed = some i →
    s.report.task = none → s.report.refreshDue = false →
    (0 < s.report.lostCount → (s.report.producer + 1) % i.logCount ≠ s.report.consumer →
      ∃ t, exec .recordWriteBegin s = .next t ∧
        sameButTraffic
          { s with
            report := { s.report with
              lostCount := 0,
              task := some
                { kind := .record,
                  words := addressed (i.logBase + 8 * s.report.producer)
                    (Record.words
                      { report := .lost s.report.lostCount, frame := s.link.frame,
                        position := s.tracker.position / 65536 }) } } } t)
    ∧ (∀ r q, s.report.lostCount = 0 → s.report.queue = r :: q →
      (s.report.producer + 1) % i.logCount ≠ s.report.consumer →
      ∃ t, exec .recordWriteBegin s = .next t ∧
        sameButTraffic
          { s with
            report := { s.report with
              queue := q,
              task := some
                { kind := .record,
                  words := addressed (i.logBase + 8 * s.report.producer) r.words } } } t)
    ∧ (∀ r q, s.report.queue = r :: q →
      (s.report.producer + 1) % i.logCount = s.report.consumer →
      ∃ t, exec .recordWriteBegin s = .next t ∧
        sameButTraffic
          { s with
            report := { s.report with
              queue := q,
              lostCount := min 65535 (s.report.lostCount + 1),
              lostTotal := min 65535 (s.report.lostTotal + 1) } } t)

/-- A REFRESH_BEGIN with a refresh due and no task in progress adds 1 to the generation and takes the copy: sixteen
words at the status base, the new generation first and last, and between them the values that the blocks hold
at that moment, an entry of the chest write FIFO whose write is granted counted until it completes (R171, R172,
R180). -/
def Obligations.RefreshBegins : Prop :=
  ∀ (i : Installed) (k : PickupNo → Nat) (f : Bool → Nat) (s : State), s.path.waiting = none →
    s.loader.installed = some i → s.report.refreshDue = true → s.report.task = none →
    (∀ n, k n = (s.link.pickups[n]).state.code) → f true = 1 → f false = 0 →
    ∃ t, exec .refreshBegin s = .next t ∧
      sameButTraffic
        { s with
          report := { s.report with
            generation := s.report.generation + 1, refreshDue := false,
            task := some
              { kind := .refresh,
                words := addressed i.statusBase
                  [s.report.generation + 1,
                   BitVec.ofNat 16 (s.tracker.state.code + 16 * s.loader.config.code
                     + 256 * f s.release.starved + 512 * f (s.run.wind == .confirmed)
                     + 1024 * f s.chest.protectSeen + 2048 * f (s.loader.config == .deferred)),
                   BitVec.ofNat 16 (s.tracker.position / 65536),
                   BitVec.ofNat 16 (s.tracker.position / 65536 / 65536),
                   BitVec.ofNat 16 (min s.tracker.tempo 65535),
                   BitVec.ofNat 16 (min s.release.hold.length 65535),
                   BitVec.ofNat 16 (min s.matcher.cues.length 65535),
                   BitVec.ofNat 16 (s.admission.list.length + 256 * s.fifoCount),
                   BitVec.ofNat 16 (k 0 + 16 * k 1 + 256 * k 2 + 4096 * k 3),
                   BitVec.ofNat 16 (k 4 + 16 * k 5 + 256 * k 6 + 4096 * k 7),
                   BitVec.ofNat 16 (k 8 + 16 * k 9 + 256 * k 10 + 4096 * k 11),
                   BitVec.ofNat 16 (min s.report.producer 65535),
                   BitVec.ofNat 16 s.link.frame.toNat,
                   BitVec.ofNat 16 (s.link.frame.toNat / 65536),
                   BitVec.ofNat 16 (min s.report.lostTotal 65535),
                   s.report.generation + 1] } } } t
end

