-- ==== Sys2Proof/Laws/State.lean ====
section
/-! SUPPORT. One lemma per field per update of the state, for the operations that only write fields: a proof
reads a field through an update without unfolding it. -/

namespace Sys2Proof.Machine

/-! ### setSlot -/

@[simp] theorem State.setSlot_pending (n : Nat) (v : SlotState) (s : State) : (s.setSlot n v).pending = s.pending := rfl
@[simp] theorem State.setSlot_spaceWait (n : Nat) (v : SlotState) (s : State) : (s.setSlot n v).spaceWait = s.spaceWait := rfl
@[simp] theorem State.setSlot_mem (n : Nat) (v : SlotState) (s : State) : (s.setSlot n v).mem = s.mem := rfl
@[simp] theorem State.setSlot_path (n : Nat) (v : SlotState) (s : State) : (s.setSlot n v).path = s.path := rfl
@[simp] theorem State.setSlot_loader (n : Nat) (v : SlotState) (s : State) : (s.setSlot n v).loader = s.loader := rfl
@[simp] theorem State.setSlot_release (n : Nat) (v : SlotState) (s : State) : (s.setSlot n v).release = s.release := rfl
@[simp] theorem State.setSlot_chest (n : Nat) (v : SlotState) (s : State) : (s.setSlot n v).chest = s.chest := rfl
@[simp] theorem State.setSlot_link (n : Nat) (v : SlotState) (s : State) : (s.setSlot n v).link = s.link := rfl
@[simp] theorem State.setSlot_fuser (n : Nat) (v : SlotState) (s : State) : (s.setSlot n v).fuser = s.fuser := rfl
@[simp] theorem State.setSlot_matcher (n : Nat) (v : SlotState) (s : State) : (s.setSlot n v).matcher = s.matcher := rfl
@[simp] theorem State.setSlot_tracker (n : Nat) (v : SlotState) (s : State) : (s.setSlot n v).tracker = s.tracker := rfl
@[simp] theorem State.setSlot_run (n : Nat) (v : SlotState) (s : State) : (s.setSlot n v).run = s.run := rfl
@[simp] theorem State.setSlot_report (n : Nat) (v : SlotState) (s : State) : (s.setSlot n v).report = s.report := rfl
@[simp] theorem State.setSlot_raised (n : Nat) (v : SlotState) (s : State) : (s.setSlot n v).raised = s.raised := rfl

/-! ### discardFetch -/

@[simp] theorem State.discardFetch_pending (s : State) : s.discardFetch.pending = s.pending := rfl
@[simp] theorem State.discardFetch_spaceWait (s : State) : s.discardFetch.spaceWait = s.spaceWait := rfl
@[simp] theorem State.discardFetch_mem (s : State) : s.discardFetch.mem = s.mem := rfl
@[simp] theorem State.discardFetch_loader (s : State) : s.discardFetch.loader = s.loader := rfl
@[simp] theorem State.discardFetch_release (s : State) : s.discardFetch.release = s.release := rfl
@[simp] theorem State.discardFetch_chest (s : State) : s.discardFetch.chest = s.chest := rfl
@[simp] theorem State.discardFetch_link (s : State) : s.discardFetch.link = s.link := rfl
@[simp] theorem State.discardFetch_fuser (s : State) : s.discardFetch.fuser = s.fuser := rfl
@[simp] theorem State.discardFetch_matcher (s : State) : s.discardFetch.matcher = s.matcher := rfl
@[simp] theorem State.discardFetch_tracker (s : State) : s.discardFetch.tracker = s.tracker := rfl
@[simp] theorem State.discardFetch_run (s : State) : s.discardFetch.run = s.run := rfl
@[simp] theorem State.discardFetch_report (s : State) : s.discardFetch.report = s.report := rfl
@[simp] theorem State.discardFetch_raised (s : State) : s.discardFetch.raised = s.raised := rfl

/-! ### clearAdmission -/

@[simp] theorem State.clearAdmission_pending (s : State) : s.clearAdmission.pending = s.pending := rfl
@[simp] theorem State.clearAdmission_spaceWait (s : State) : s.clearAdmission.spaceWait = s.spaceWait := rfl
@[simp] theorem State.clearAdmission_mem (s : State) : s.clearAdmission.mem = s.mem := rfl
@[simp] theorem State.clearAdmission_loader (s : State) : s.clearAdmission.loader = s.loader := rfl
@[simp] theorem State.clearAdmission_release (s : State) : s.clearAdmission.release = s.release := rfl
@[simp] theorem State.clearAdmission_chest (s : State) : s.clearAdmission.chest = s.chest := rfl
@[simp] theorem State.clearAdmission_link (s : State) : s.clearAdmission.link = s.link := rfl
@[simp] theorem State.clearAdmission_fuser (s : State) : s.clearAdmission.fuser = s.fuser := rfl
@[simp] theorem State.clearAdmission_matcher (s : State) : s.clearAdmission.matcher = s.matcher := rfl
@[simp] theorem State.clearAdmission_tracker (s : State) : s.clearAdmission.tracker = s.tracker := rfl
@[simp] theorem State.clearAdmission_run (s : State) : s.clearAdmission.run = s.run := rfl
@[simp] theorem State.clearAdmission_report (s : State) : s.clearAdmission.report = s.report := rfl
@[simp] theorem State.clearAdmission_raised (s : State) : s.clearAdmission.raised = s.raised := rfl

/-! ### clearHold -/

@[simp] theorem State.clearHold_pending (s : State) : s.clearHold.pending = s.pending := rfl
@[simp] theorem State.clearHold_spaceWait (s : State) : s.clearHold.spaceWait = s.spaceWait := rfl
@[simp] theorem State.clearHold_mem (s : State) : s.clearHold.mem = s.mem := rfl
@[simp] theorem State.clearHold_path (s : State) : s.clearHold.path = s.path := rfl
@[simp] theorem State.clearHold_loader (s : State) : s.clearHold.loader = s.loader := rfl
@[simp] theorem State.clearHold_admission (s : State) : s.clearHold.admission = s.admission := rfl
@[simp] theorem State.clearHold_chest (s : State) : s.clearHold.chest = s.chest := rfl
@[simp] theorem State.clearHold_link (s : State) : s.clearHold.link = s.link := rfl
@[simp] theorem State.clearHold_fuser (s : State) : s.clearHold.fuser = s.fuser := rfl
@[simp] theorem State.clearHold_matcher (s : State) : s.clearHold.matcher = s.matcher := rfl
@[simp] theorem State.clearHold_tracker (s : State) : s.clearHold.tracker = s.tracker := rfl
@[simp] theorem State.clearHold_run (s : State) : s.clearHold.run = s.run := rfl
@[simp] theorem State.clearHold_report (s : State) : s.clearHold.report = s.report := rfl
@[simp] theorem State.clearHold_raised (s : State) : s.clearHold.raised = s.raised := rfl

/-! ### storeWaitStamp -/

@[simp] theorem State.storeWaitStamp_pending (s : State) : s.storeWaitStamp.pending = s.pending := rfl
@[simp] theorem State.storeWaitStamp_spaceWait (s : State) : s.storeWaitStamp.spaceWait = s.spaceWait := rfl
@[simp] theorem State.storeWaitStamp_mem (s : State) : s.storeWaitStamp.mem = s.mem := rfl
@[simp] theorem State.storeWaitStamp_path (s : State) : s.storeWaitStamp.path = s.path := rfl
@[simp] theorem State.storeWaitStamp_loader (s : State) : s.storeWaitStamp.loader = s.loader := rfl
@[simp] theorem State.storeWaitStamp_admission (s : State) : s.storeWaitStamp.admission = s.admission := rfl
@[simp] theorem State.storeWaitStamp_release (s : State) : s.storeWaitStamp.release = s.release := rfl
@[simp] theorem State.storeWaitStamp_chest (s : State) : s.storeWaitStamp.chest = s.chest := rfl
@[simp] theorem State.storeWaitStamp_link (s : State) : s.storeWaitStamp.link = s.link := rfl
@[simp] theorem State.storeWaitStamp_fuser (s : State) : s.storeWaitStamp.fuser = s.fuser := rfl
@[simp] theorem State.storeWaitStamp_matcher (s : State) : s.storeWaitStamp.matcher = s.matcher := rfl
@[simp] theorem State.storeWaitStamp_run (s : State) : s.storeWaitStamp.run = s.run := rfl
@[simp] theorem State.storeWaitStamp_report (s : State) : s.storeWaitStamp.report = s.report := rfl
@[simp] theorem State.storeWaitStamp_raised (s : State) : s.storeWaitStamp.raised = s.raised := rfl

/-! ### requestSweep -/

@[simp] theorem State.requestSweep_pending (k : SweepKind) (d : Divisions) (s : State) : (s.requestSweep k d).pending = s.pending := rfl
@[simp] theorem State.requestSweep_spaceWait (k : SweepKind) (d : Divisions) (s : State) : (s.requestSweep k d).spaceWait = s.spaceWait := rfl
@[simp] theorem State.requestSweep_mem (k : SweepKind) (d : Divisions) (s : State) : (s.requestSweep k d).mem = s.mem := rfl
@[simp] theorem State.requestSweep_loader (k : SweepKind) (d : Divisions) (s : State) : (s.requestSweep k d).loader = s.loader := rfl
@[simp] theorem State.requestSweep_admission (k : SweepKind) (d : Divisions) (s : State) : (s.requestSweep k d).admission = s.admission := rfl
@[simp] theorem State.requestSweep_release (k : SweepKind) (d : Divisions) (s : State) : (s.requestSweep k d).release = s.release := rfl
@[simp] theorem State.requestSweep_link (k : SweepKind) (d : Divisions) (s : State) : (s.requestSweep k d).link = s.link := rfl
@[simp] theorem State.requestSweep_fuser (k : SweepKind) (d : Divisions) (s : State) : (s.requestSweep k d).fuser = s.fuser := rfl
@[simp] theorem State.requestSweep_matcher (k : SweepKind) (d : Divisions) (s : State) : (s.requestSweep k d).matcher = s.matcher := rfl
@[simp] theorem State.requestSweep_tracker (k : SweepKind) (d : Divisions) (s : State) : (s.requestSweep k d).tracker = s.tracker := rfl
@[simp] theorem State.requestSweep_run (k : SweepKind) (d : Divisions) (s : State) : (s.requestSweep k d).run = s.run := rfl
@[simp] theorem State.requestSweep_report (k : SweepKind) (d : Divisions) (s : State) : (s.requestSweep k d).report = s.report := rfl
@[simp] theorem State.requestSweep_raised (k : SweepKind) (d : Divisions) (s : State) : (s.requestSweep k d).raised = s.raised := rfl

/-! ### setStage -/

@[simp] theorem State.setStage_pending (x : RunStage) (s : State) : (s.setStage x).pending = s.pending := rfl
@[simp] theorem State.setStage_spaceWait (x : RunStage) (s : State) : (s.setStage x).spaceWait = s.spaceWait := rfl
@[simp] theorem State.setStage_mem (x : RunStage) (s : State) : (s.setStage x).mem = s.mem := rfl
@[simp] theorem State.setStage_path (x : RunStage) (s : State) : (s.setStage x).path = s.path := rfl
@[simp] theorem State.setStage_loader (x : RunStage) (s : State) : (s.setStage x).loader = s.loader := rfl
@[simp] theorem State.setStage_admission (x : RunStage) (s : State) : (s.setStage x).admission = s.admission := rfl
@[simp] theorem State.setStage_release (x : RunStage) (s : State) : (s.setStage x).release = s.release := rfl
@[simp] theorem State.setStage_chest (x : RunStage) (s : State) : (s.setStage x).chest = s.chest := rfl
@[simp] theorem State.setStage_link (x : RunStage) (s : State) : (s.setStage x).link = s.link := rfl
@[simp] theorem State.setStage_fuser (x : RunStage) (s : State) : (s.setStage x).fuser = s.fuser := rfl
@[simp] theorem State.setStage_matcher (x : RunStage) (s : State) : (s.setStage x).matcher = s.matcher := rfl
@[simp] theorem State.setStage_tracker (x : RunStage) (s : State) : (s.setStage x).tracker = s.tracker := rfl
@[simp] theorem State.setStage_report (x : RunStage) (s : State) : (s.setStage x).report = s.report := rfl
@[simp] theorem State.setStage_raised (x : RunStage) (s : State) : (s.setStage x).raised = s.raised := rfl

/-! ### place -/

@[simp] theorem State.place_pending (a : PortAccess) (s : State) : (s.place a).pending = s.pending := rfl
@[simp] theorem State.place_spaceWait (a : PortAccess) (s : State) : (s.place a).spaceWait = s.spaceWait := rfl
@[simp] theorem State.place_mem (a : PortAccess) (s : State) : (s.place a).mem = s.mem := rfl
@[simp] theorem State.place_loader (a : PortAccess) (s : State) : (s.place a).loader = s.loader := rfl
@[simp] theorem State.place_admission (a : PortAccess) (s : State) : (s.place a).admission = s.admission := rfl
@[simp] theorem State.place_release (a : PortAccess) (s : State) : (s.place a).release = s.release := rfl
@[simp] theorem State.place_chest (a : PortAccess) (s : State) : (s.place a).chest = s.chest := rfl
@[simp] theorem State.place_link (a : PortAccess) (s : State) : (s.place a).link = s.link := rfl
@[simp] theorem State.place_fuser (a : PortAccess) (s : State) : (s.place a).fuser = s.fuser := rfl
@[simp] theorem State.place_matcher (a : PortAccess) (s : State) : (s.place a).matcher = s.matcher := rfl
@[simp] theorem State.place_tracker (a : PortAccess) (s : State) : (s.place a).tracker = s.tracker := rfl
@[simp] theorem State.place_run (a : PortAccess) (s : State) : (s.place a).run = s.run := rfl
@[simp] theorem State.place_report (a : PortAccess) (s : State) : (s.place a).report = s.report := rfl
@[simp] theorem State.place_raised (a : PortAccess) (s : State) : (s.place a).raised = s.raised := rfl

/-! ### takeWaiting -/

@[simp] theorem State.takeWaiting_pending (s : State) : s.takeWaiting.pending = s.pending := rfl
@[simp] theorem State.takeWaiting_spaceWait (s : State) : s.takeWaiting.spaceWait = s.spaceWait := rfl
@[simp] theorem State.takeWaiting_mem (s : State) : s.takeWaiting.mem = s.mem := rfl
@[simp] theorem State.takeWaiting_loader (s : State) : s.takeWaiting.loader = s.loader := rfl
@[simp] theorem State.takeWaiting_admission (s : State) : s.takeWaiting.admission = s.admission := rfl
@[simp] theorem State.takeWaiting_release (s : State) : s.takeWaiting.release = s.release := rfl
@[simp] theorem State.takeWaiting_chest (s : State) : s.takeWaiting.chest = s.chest := rfl
@[simp] theorem State.takeWaiting_link (s : State) : s.takeWaiting.link = s.link := rfl
@[simp] theorem State.takeWaiting_fuser (s : State) : s.takeWaiting.fuser = s.fuser := rfl
@[simp] theorem State.takeWaiting_matcher (s : State) : s.takeWaiting.matcher = s.matcher := rfl
@[simp] theorem State.takeWaiting_tracker (s : State) : s.takeWaiting.tracker = s.tracker := rfl
@[simp] theorem State.takeWaiting_run (s : State) : s.takeWaiting.run = s.run := rfl
@[simp] theorem State.takeWaiting_report (s : State) : s.takeWaiting.report = s.report := rfl
@[simp] theorem State.takeWaiting_raised (s : State) : s.takeWaiting.raised = s.raised := rfl

/-! ### releaseProcessor -/

@[simp] theorem State.releaseProcessor_pending (s : State) : s.releaseProcessor.pending = s.pending := rfl
@[simp] theorem State.releaseProcessor_spaceWait (s : State) : s.releaseProcessor.spaceWait = s.spaceWait := rfl
@[simp] theorem State.releaseProcessor_mem (s : State) : s.releaseProcessor.mem = s.mem := rfl
@[simp] theorem State.releaseProcessor_loader (s : State) : s.releaseProcessor.loader = s.loader := rfl
@[simp] theorem State.releaseProcessor_admission (s : State) : s.releaseProcessor.admission = s.admission := rfl
@[simp] theorem State.releaseProcessor_release (s : State) : s.releaseProcessor.release = s.release := rfl
@[simp] theorem State.releaseProcessor_chest (s : State) : s.releaseProcessor.chest = s.chest := rfl
@[simp] theorem State.releaseProcessor_link (s : State) : s.releaseProcessor.link = s.link := rfl
@[simp] theorem State.releaseProcessor_fuser (s : State) : s.releaseProcessor.fuser = s.fuser := rfl
@[simp] theorem State.releaseProcessor_matcher (s : State) : s.releaseProcessor.matcher = s.matcher := rfl
@[simp] theorem State.releaseProcessor_tracker (s : State) : s.releaseProcessor.tracker = s.tracker := rfl
@[simp] theorem State.releaseProcessor_run (s : State) : s.releaseProcessor.run = s.run := rfl
@[simp] theorem State.releaseProcessor_report (s : State) : s.releaseProcessor.report = s.report := rfl
@[simp] theorem State.releaseProcessor_raised (s : State) : s.releaseProcessor.raised = s.raised := rfl

/-! ### wait -/

@[simp] theorem State.wait_pending (a : ProcAccess) (s : State) : (s.wait a).pending = s.pending := rfl
@[simp] theorem State.wait_spaceWait (a : ProcAccess) (s : State) : (s.wait a).spaceWait = s.spaceWait := rfl
@[simp] theorem State.wait_mem (a : ProcAccess) (s : State) : (s.wait a).mem = s.mem := rfl
@[simp] theorem State.wait_loader (a : ProcAccess) (s : State) : (s.wait a).loader = s.loader := rfl
@[simp] theorem State.wait_admission (a : ProcAccess) (s : State) : (s.wait a).admission = s.admission := rfl
@[simp] theorem State.wait_release (a : ProcAccess) (s : State) : (s.wait a).release = s.release := rfl
@[simp] theorem State.wait_chest (a : ProcAccess) (s : State) : (s.wait a).chest = s.chest := rfl
@[simp] theorem State.wait_link (a : ProcAccess) (s : State) : (s.wait a).link = s.link := rfl
@[simp] theorem State.wait_fuser (a : ProcAccess) (s : State) : (s.wait a).fuser = s.fuser := rfl
@[simp] theorem State.wait_matcher (a : ProcAccess) (s : State) : (s.wait a).matcher = s.matcher := rfl
@[simp] theorem State.wait_tracker (a : ProcAccess) (s : State) : (s.wait a).tracker = s.tracker := rfl
@[simp] theorem State.wait_run (a : ProcAccess) (s : State) : (s.wait a).run = s.run := rfl
@[simp] theorem State.wait_report (a : ProcAccess) (s : State) : (s.wait a).report = s.report := rfl
@[simp] theorem State.wait_raised (a : ProcAccess) (s : State) : (s.wait a).raised = s.raised := rfl

/-! ### store -/

@[simp] theorem State.store_pending (a : Nat) (v : Word) (s : State) : (s.store a v).pending = s.pending := rfl
@[simp] theorem State.store_spaceWait (a : Nat) (v : Word) (s : State) : (s.store a v).spaceWait = s.spaceWait := rfl
@[simp] theorem State.store_path (a : Nat) (v : Word) (s : State) : (s.store a v).path = s.path := rfl
@[simp] theorem State.store_loader (a : Nat) (v : Word) (s : State) : (s.store a v).loader = s.loader := rfl
@[simp] theorem State.store_admission (a : Nat) (v : Word) (s : State) : (s.store a v).admission = s.admission := rfl
@[simp] theorem State.store_release (a : Nat) (v : Word) (s : State) : (s.store a v).release = s.release := rfl
@[simp] theorem State.store_chest (a : Nat) (v : Word) (s : State) : (s.store a v).chest = s.chest := rfl
@[simp] theorem State.store_link (a : Nat) (v : Word) (s : State) : (s.store a v).link = s.link := rfl
@[simp] theorem State.store_fuser (a : Nat) (v : Word) (s : State) : (s.store a v).fuser = s.fuser := rfl
@[simp] theorem State.store_matcher (a : Nat) (v : Word) (s : State) : (s.store a v).matcher = s.matcher := rfl
@[simp] theorem State.store_tracker (a : Nat) (v : Word) (s : State) : (s.store a v).tracker = s.tracker := rfl
@[simp] theorem State.store_run (a : Nat) (v : Word) (s : State) : (s.store a v).run = s.run := rfl
@[simp] theorem State.store_report (a : Nat) (v : Word) (s : State) : (s.store a v).report = s.report := rfl
@[simp] theorem State.store_raised (a : Nat) (v : Word) (s : State) : (s.store a v).raised = s.raised := rfl

/-! ### returnRead -/

@[simp] theorem State.returnRead_pending (a : Nat) (b : Bool) (s : State) : (s.returnRead a b).pending = s.pending := rfl
@[simp] theorem State.returnRead_spaceWait (a : Nat) (b : Bool) (s : State) : (s.returnRead a b).spaceWait = s.spaceWait := rfl
@[simp] theorem State.returnRead_mem (a : Nat) (b : Bool) (s : State) : (s.returnRead a b).mem = s.mem := rfl
@[simp] theorem State.returnRead_loader (a : Nat) (b : Bool) (s : State) : (s.returnRead a b).loader = s.loader := rfl
@[simp] theorem State.returnRead_admission (a : Nat) (b : Bool) (s : State) : (s.returnRead a b).admission = s.admission := rfl
@[simp] theorem State.returnRead_release (a : Nat) (b : Bool) (s : State) : (s.returnRead a b).release = s.release := rfl
@[simp] theorem State.returnRead_chest (a : Nat) (b : Bool) (s : State) : (s.returnRead a b).chest = s.chest := rfl
@[simp] theorem State.returnRead_link (a : Nat) (b : Bool) (s : State) : (s.returnRead a b).link = s.link := rfl
@[simp] theorem State.returnRead_fuser (a : Nat) (b : Bool) (s : State) : (s.returnRead a b).fuser = s.fuser := rfl
@[simp] theorem State.returnRead_matcher (a : Nat) (b : Bool) (s : State) : (s.returnRead a b).matcher = s.matcher := rfl
@[simp] theorem State.returnRead_tracker (a : Nat) (b : Bool) (s : State) : (s.returnRead a b).tracker = s.tracker := rfl
@[simp] theorem State.returnRead_run (a : Nat) (b : Bool) (s : State) : (s.returnRead a b).run = s.run := rfl
@[simp] theorem State.returnRead_report (a : Nat) (b : Bool) (s : State) : (s.returnRead a b).report = s.report := rfl
@[simp] theorem State.returnRead_raised (a : Nat) (b : Bool) (s : State) : (s.returnRead a b).raised = s.raised := rfl

/-! ### leaveList -/

@[simp] theorem State.leaveList_pending (s : State) : s.leaveList.pending = s.pending := rfl
@[simp] theorem State.leaveList_spaceWait (s : State) : s.leaveList.spaceWait = s.spaceWait := rfl
@[simp] theorem State.leaveList_mem (s : State) : s.leaveList.mem = s.mem := rfl
@[simp] theorem State.leaveList_path (s : State) : s.leaveList.path = s.path := rfl
@[simp] theorem State.leaveList_loader (s : State) : s.leaveList.loader = s.loader := rfl
@[simp] theorem State.leaveList_release (s : State) : s.leaveList.release = s.release := rfl
@[simp] theorem State.leaveList_chest (s : State) : s.leaveList.chest = s.chest := rfl
@[simp] theorem State.leaveList_link (s : State) : s.leaveList.link = s.link := rfl
@[simp] theorem State.leaveList_fuser (s : State) : s.leaveList.fuser = s.fuser := rfl
@[simp] theorem State.leaveList_matcher (s : State) : s.leaveList.matcher = s.matcher := rfl
@[simp] theorem State.leaveList_tracker (s : State) : s.leaveList.tracker = s.tracker := rfl
@[simp] theorem State.leaveList_run (s : State) : s.leaveList.run = s.run := rfl
@[simp] theorem State.leaveList_report (s : State) : s.leaveList.report = s.report := rfl
@[simp] theorem State.leaveList_raised (s : State) : s.leaveList.raised = s.raised := rfl

/-! ### restartFetch -/

@[simp] theorem State.restartFetch_pending (s : State) : s.restartFetch.pending = s.pending := rfl
@[simp] theorem State.restartFetch_spaceWait (s : State) : s.restartFetch.spaceWait = s.spaceWait := rfl
@[simp] theorem State.restartFetch_mem (s : State) : s.restartFetch.mem = s.mem := rfl
@[simp] theorem State.restartFetch_loader (s : State) : s.restartFetch.loader = s.loader := rfl
@[simp] theorem State.restartFetch_release (s : State) : s.restartFetch.release = s.release := rfl
@[simp] theorem State.restartFetch_chest (s : State) : s.restartFetch.chest = s.chest := rfl
@[simp] theorem State.restartFetch_link (s : State) : s.restartFetch.link = s.link := rfl
@[simp] theorem State.restartFetch_fuser (s : State) : s.restartFetch.fuser = s.fuser := rfl
@[simp] theorem State.restartFetch_matcher (s : State) : s.restartFetch.matcher = s.matcher := rfl
@[simp] theorem State.restartFetch_tracker (s : State) : s.restartFetch.tracker = s.tracker := rfl
@[simp] theorem State.restartFetch_run (s : State) : s.restartFetch.run = s.run := rfl
@[simp] theorem State.restartFetch_report (s : State) : s.restartFetch.report = s.report := rfl
@[simp] theorem State.restartFetch_raised (s : State) : s.restartFetch.raised = s.raised := rfl

/-! ### unlist -/

@[simp] theorem State.unlist_pending (n : Nat) (s : State) : (s.unlist n).pending = s.pending := rfl
@[simp] theorem State.unlist_spaceWait (n : Nat) (s : State) : (s.unlist n).spaceWait = s.spaceWait := rfl
@[simp] theorem State.unlist_mem (n : Nat) (s : State) : (s.unlist n).mem = s.mem := rfl
@[simp] theorem State.unlist_path (n : Nat) (s : State) : (s.unlist n).path = s.path := rfl
@[simp] theorem State.unlist_loader (n : Nat) (s : State) : (s.unlist n).loader = s.loader := rfl
@[simp] theorem State.unlist_release (n : Nat) (s : State) : (s.unlist n).release = s.release := rfl
@[simp] theorem State.unlist_chest (n : Nat) (s : State) : (s.unlist n).chest = s.chest := rfl
@[simp] theorem State.unlist_link (n : Nat) (s : State) : (s.unlist n).link = s.link := rfl
@[simp] theorem State.unlist_fuser (n : Nat) (s : State) : (s.unlist n).fuser = s.fuser := rfl
@[simp] theorem State.unlist_matcher (n : Nat) (s : State) : (s.unlist n).matcher = s.matcher := rfl
@[simp] theorem State.unlist_tracker (n : Nat) (s : State) : (s.unlist n).tracker = s.tracker := rfl
@[simp] theorem State.unlist_run (n : Nat) (s : State) : (s.unlist n).run = s.run := rfl
@[simp] theorem State.unlist_report (n : Nat) (s : State) : (s.unlist n).report = s.report := rfl
@[simp] theorem State.unlist_raised (n : Nat) (s : State) : (s.unlist n).raised = s.raised := rfl

/-! ### recommit -/

@[simp] theorem State.recommit_pending (n : Nat) (v : Word) (s : State) : (s.recommit n v).pending = s.pending := rfl
@[simp] theorem State.recommit_spaceWait (n : Nat) (v : Word) (s : State) : (s.recommit n v).spaceWait = s.spaceWait := rfl
@[simp] theorem State.recommit_mem (n : Nat) (v : Word) (s : State) : (s.recommit n v).mem = s.mem := rfl
@[simp] theorem State.recommit_path (n : Nat) (v : Word) (s : State) : (s.recommit n v).path = s.path := rfl
@[simp] theorem State.recommit_loader (n : Nat) (v : Word) (s : State) : (s.recommit n v).loader = s.loader := rfl
@[simp] theorem State.recommit_release (n : Nat) (v : Word) (s : State) : (s.recommit n v).release = s.release := rfl
@[simp] theorem State.recommit_chest (n : Nat) (v : Word) (s : State) : (s.recommit n v).chest = s.chest := rfl
@[simp] theorem State.recommit_link (n : Nat) (v : Word) (s : State) : (s.recommit n v).link = s.link := rfl
@[simp] theorem State.recommit_fuser (n : Nat) (v : Word) (s : State) : (s.recommit n v).fuser = s.fuser := rfl
@[simp] theorem State.recommit_matcher (n : Nat) (v : Word) (s : State) : (s.recommit n v).matcher = s.matcher := rfl
@[simp] theorem State.recommit_tracker (n : Nat) (v : Word) (s : State) : (s.recommit n v).tracker = s.tracker := rfl
@[simp] theorem State.recommit_run (n : Nat) (v : Word) (s : State) : (s.recommit n v).run = s.run := rfl
@[simp] theorem State.recommit_report (n : Nat) (v : Word) (s : State) : (s.recommit n v).report = s.report := rfl
@[simp] theorem State.recommit_raised (n : Nat) (v : Word) (s : State) : (s.recommit n v).raised = s.raised := rfl

/-! ### takeHead -/

@[simp] theorem State.takeHead_pending (n : Nat) (q : List HoldEntry) (s : State) : (s.takeHead n q).pending = s.pending := rfl
@[simp] theorem State.takeHead_spaceWait (n : Nat) (q : List HoldEntry) (s : State) : (s.takeHead n q).spaceWait = s.spaceWait := rfl
@[simp] theorem State.takeHead_mem (n : Nat) (q : List HoldEntry) (s : State) : (s.takeHead n q).mem = s.mem := rfl
@[simp] theorem State.takeHead_path (n : Nat) (q : List HoldEntry) (s : State) : (s.takeHead n q).path = s.path := rfl
@[simp] theorem State.takeHead_loader (n : Nat) (q : List HoldEntry) (s : State) : (s.takeHead n q).loader = s.loader := rfl
@[simp] theorem State.takeHead_chest (n : Nat) (q : List HoldEntry) (s : State) : (s.takeHead n q).chest = s.chest := rfl
@[simp] theorem State.takeHead_link (n : Nat) (q : List HoldEntry) (s : State) : (s.takeHead n q).link = s.link := rfl
@[simp] theorem State.takeHead_fuser (n : Nat) (q : List HoldEntry) (s : State) : (s.takeHead n q).fuser = s.fuser := rfl
@[simp] theorem State.takeHead_matcher (n : Nat) (q : List HoldEntry) (s : State) : (s.takeHead n q).matcher = s.matcher := rfl
@[simp] theorem State.takeHead_tracker (n : Nat) (q : List HoldEntry) (s : State) : (s.takeHead n q).tracker = s.tracker := rfl
@[simp] theorem State.takeHead_run (n : Nat) (q : List HoldEntry) (s : State) : (s.takeHead n q).run = s.run := rfl
@[simp] theorem State.takeHead_report (n : Nat) (q : List HoldEntry) (s : State) : (s.takeHead n q).report = s.report := rfl
@[simp] theorem State.takeHead_raised (n : Nat) (q : List HoldEntry) (s : State) : (s.takeHead n q).raised = s.raised := rfl

/-! ### What these updates write -/

@[simp] theorem State.place_path (a : PortAccess) (s : State) :
    (s.place a).path = { s.path with port := some a } := rfl

@[simp] theorem State.takeWaiting_path (s : State) :
    s.takeWaiting.path = { s.path with waiting := none, yieldCount := 0 } := rfl

@[simp] theorem State.releaseProcessor_path (s : State) :
    s.releaseProcessor.path = { s.path with ready := true } := rfl

@[simp] theorem State.store_mem (a : Nat) (v : Word) (s : State) :
    (s.store a v).mem = s.mem.write a v := rfl

@[simp] theorem State.returnRead_path (a : Nat) (b : Bool) (s : State) :
    (s.returnRead a b).path = { s.path with readData := throughPolarity b (s.mem.read a) } := rfl

@[simp] theorem State.clearHold_release (s : State) :
    s.clearHold.release = { hold := [], starved := false } := rfl

@[simp] theorem State.setStage_run (x : RunStage) (s : State) :
    (s.setStage x).run = { s.run with stage := x } := rfl

@[simp] theorem State.storeWaitStamp_tracker (s : State) :
    s.storeWaitStamp.tracker = { s.tracker with waitStamp := s.matcher.waitStamp } := rfl

@[simp] theorem State.setSlot_admission (n : Nat) (v : SlotState) (s : State) :
    (s.setSlot n v).admission =
      { s.admission with slots := Table.set .free s.admission.slots n v } := rfl

/-! ### settleWait -/

@[simp] theorem State.settleWait_pending (s : State) : s.settleWait.pending = s.pending := rfl
@[simp] theorem State.settleWait_mem (s : State) : s.settleWait.mem = s.mem := rfl
@[simp] theorem State.settleWait_path (s : State) : s.settleWait.path = s.path := rfl
@[simp] theorem State.settleWait_loader (s : State) : s.settleWait.loader = s.loader := rfl
@[simp] theorem State.settleWait_admission (s : State) : s.settleWait.admission = s.admission := rfl
@[simp] theorem State.settleWait_release (s : State) : s.settleWait.release = s.release := rfl
@[simp] theorem State.settleWait_chest (s : State) : s.settleWait.chest = s.chest := rfl
@[simp] theorem State.settleWait_link (s : State) : s.settleWait.link = s.link := rfl
@[simp] theorem State.settleWait_fuser (s : State) : s.settleWait.fuser = s.fuser := rfl
@[simp] theorem State.settleWait_matcher (s : State) : s.settleWait.matcher = s.matcher := rfl
@[simp] theorem State.settleWait_tracker (s : State) : s.settleWait.tracker = s.tracker := rfl
@[simp] theorem State.settleWait_run (s : State) : s.settleWait.run = s.run := rfl
@[simp] theorem State.settleWait_report (s : State) : s.settleWait.report = s.report := rfl
@[simp] theorem State.settleWait_raised (s : State) : s.settleWait.raised = s.raised := rfl
@[simp] theorem State.settleWait_spaceWait (s : State) : s.settleWait.spaceWait = s.waitsFor := rfl

end Sys2Proof.Machine
end

