-- ==== Sys2Proof/Laws/Tables.lean ====
section
/-! SUPPORT. The sparse tables: what a read sees after a write, and that every operation keeps the canonical
form. The organ memory is one of them. -/

namespace Sys2Proof.Machine

variable {α : Type} [DecidableEq α] {d : α}

/-- A read of another key does not see a write. -/
theorem Table.get_set_other (t : Table α) {a b : Nat} (v : α) (h : b ≠ a) :
    Table.get d (Table.set d t a v) b = Table.get d t b := by
  induction t with
  | nil =>
    by_cases hv : v = d
    · simp [Table.set, hv]
    · simp [Table.set, Table.get, hv, Ne.symm h]
  | cons e t ih =>
    obtain ⟨k, w⟩ := e
    by_cases h1 : a < k
    · by_cases hv : v = d
      · simp [Table.set, h1, hv]
      · simp [Table.set, Table.get, h1, hv, Ne.symm h]
    · by_cases h2 : a = k
      · subst h2
        by_cases hv : v = d
        · simp [Table.set, hv, Table.get, Ne.symm h]
        · simp [Table.set, Table.get, hv, Ne.symm h]
      · simp [Table.set, Table.get, h1, h2, ih]

/-- Canonical form, entry by entry: the value is not `d`, and every later key is greater. -/
theorem Table.wf_cons (k : Nat) (v : α) (t : Table α) :
    Table.wf d ((k, v) :: t) = true ↔
      v ≠ d ∧ (∀ e ∈ t, k < e.1) ∧ Table.wf d t = true := by
  induction t generalizing k v with
  | nil => simp [Table.wf]
  | cons e t ih =>
    obtain ⟨k', v'⟩ := e
    simp only [Table.wf, Bool.and_eq_true, decide_eq_true_eq, List.mem_cons, forall_eq_or_imp]
    constructor
    · rintro ⟨⟨hv, hk⟩, hw⟩
      refine ⟨hv, ⟨hk, fun e he => ?_⟩, hw⟩
      exact lt_trans hk (((ih k' v').1 hw).2.1 e he)
    · rintro ⟨hv, ⟨hk, _⟩, hw⟩
      exact ⟨⟨hv, hk⟩, hw⟩

/-- A key below every key of the table reads as `d`. -/
theorem Table.get_below (t : Table α) (a : Nat) (h : ∀ e ∈ t, a < e.1) : Table.get d t a = d := by
  induction t with
  | nil => rfl
  | cons e t ih =>
    obtain ⟨k, w⟩ := e
    have h1 : a < k := h (k, w) (by simp)
    simp [Table.get, Nat.ne_of_gt h1, ih (fun e he => h e (by simp [he]))]

/-- A read of the written key sees the value. -/
theorem Table.get_set_same (t : Table α) (a : Nat) (v : α) (h : Table.wf d t = true) :
    Table.get d (Table.set d t a v) a = v := by
  induction t with
  | nil => by_cases hv : v = d <;> simp [Table.set, Table.get, hv]
  | cons e t ih =>
    obtain ⟨k, w⟩ := e
    obtain ⟨_, hk, ht⟩ := (Table.wf_cons k w t).1 h
    by_cases h1 : a < k
    · by_cases hv : v = d
      · simp only [Table.set, h1, hv, if_true]
        exact Table.get_below _ _ (by
          intro e he
          simp only [List.mem_cons] at he
          rcases he with rfl | he
          · exact h1
          · exact lt_trans h1 (hk e he))
      · simp [Table.set, Table.get, h1, hv]
    · by_cases h2 : a = k
      · subst h2
        by_cases hv : v = d
        · simp only [Table.set, lt_irrefl, hv, if_true, if_false]
          exact Table.get_below _ _ hk
        · simp [Table.set, Table.get, hv]
      · simp [Table.set, Table.get, h1, h2, Ne.symm h2, ih ht]

/-- The keys after a write are old keys or the written one. -/
theorem Table.mem_set (t : Table α) (a : Nat) (v : α) (e : Nat × α) (h : e ∈ Table.set d t a v) :
    e = (a, v) ∨ e ∈ t := by
  induction t with
  | nil =>
    by_cases hv : v = d
    · simp [Table.set, hv] at h
    · simp [Table.set, hv] at h; exact .inl h
  | cons x t ih =>
    obtain ⟨k, w⟩ := x
    by_cases h1 : a < k
    · by_cases hv : v = d
      · simp only [Table.set, h1, hv, if_true] at h; exact .inr h
      · simp only [Table.set, h1, hv, if_true, if_false, List.mem_cons] at h
        rcases h with h | h
        · exact .inl h
        · exact .inr (by simpa using h)
    · by_cases h2 : a = k
      · by_cases hv : v = d
        · simp only [Table.set, h1, h2, hv, if_true, if_false, lt_irrefl] at h
          exact .inr (by simp [h])
        · simp only [Table.set, h1, h2, hv, if_true, if_false, lt_irrefl, List.mem_cons] at h
          rcases h with h | h
          · exact .inl (by rw [h, h2])
          · exact .inr (by simp [h])
      · simp only [Table.set, h1, h2, if_false, List.mem_cons] at h
        rcases h with h | h
        · exact .inr (by simp [h])
        · rcases ih h with h | h
          · exact .inl h
          · exact .inr (by simp [h])

/-- A write keeps the canonical form. -/
theorem Table.wf_set (t : Table α) (a : Nat) (v : α) (h : Table.wf d t = true) :
    Table.wf d (Table.set d t a v) = true := by
  induction t with
  | nil => by_cases hv : v = d <;> simp [Table.set, Table.wf, hv]
  | cons x t ih =>
    obtain ⟨k, w⟩ := x
    obtain ⟨hw, hk, ht⟩ := (Table.wf_cons k w t).1 h
    by_cases h1 : a < k
    · by_cases hv : v = d
      · simpa [Table.set, h1, hv] using h
      · simp only [Table.set, h1, hv, if_true, if_false]
        refine (Table.wf_cons _ _ _).2 ⟨hv, ?_, h⟩
        intro e he
        simp only [List.mem_cons] at he
        rcases he with rfl | he
        · exact h1
        · exact lt_trans h1 (hk e he)
    · by_cases h2 : a = k
      · subst h2
        by_cases hv : v = d
        · simpa [Table.set, hv] using ht
        · simp only [Table.set, lt_irrefl, hv, if_false, if_true]
          exact (Table.wf_cons _ _ _).2 ⟨hv, hk, ht⟩
      · simp only [Table.set, h1, h2, if_false]
        refine (Table.wf_cons _ _ _).2 ⟨hw, ?_, ih ht⟩
        intro e he
        rcases Table.mem_set t a v e he with rfl | he
        · omega
        · exact hk e he

/-- Every key after a map over the values is an old key. -/
theorem Table.mem_mapValues (f : α → α) (t : Table α) (e : Nat × α)
    (h : e ∈ Table.mapValues d f t) : ∃ e' ∈ t, e'.1 = e.1 := by
  induction t with
  | nil => simp [Table.mapValues] at h
  | cons x t ih =>
    obtain ⟨k, w⟩ := x
    by_cases hf : f w = d
    · simp only [Table.mapValues, hf, if_true] at h
      obtain ⟨e', he', hk⟩ := ih h
      exact ⟨e', by simp [he'], hk⟩
    · simp only [Table.mapValues, hf, if_false, List.mem_cons] at h
      rcases h with h | h
      · exact ⟨(k, w), by simp, by rw [h]⟩
      · obtain ⟨e', he', hk⟩ := ih h
        exact ⟨e', by simp [he'], hk⟩

/-- A map over the values keeps the canonical form. -/
theorem Table.wf_mapValues (f : α → α) (t : Table α) (h : Table.wf d t = true) :
    Table.wf d (Table.mapValues d f t) = true := by
  induction t with
  | nil => simp [Table.mapValues, Table.wf]
  | cons x t ih =>
    obtain ⟨k, w⟩ := x
    obtain ⟨_, hk, ht⟩ := (Table.wf_cons k w t).1 h
    by_cases hf : f w = d
    · simpa [Table.mapValues, hf] using ih ht
    · simp only [Table.mapValues, hf, if_false]
      refine (Table.wf_cons _ _ _).2 ⟨hf, ?_, ih ht⟩
      intro e he
      obtain ⟨e', he', hke⟩ := Table.mem_mapValues f t e he
      rw [← hke]; exact hk e' he'

/-- A read of a mapped table in canonical form is the mapped read, for a function that keeps the default. -/
theorem Table.get_mapValues (f : α → α) (hf : f d = d) (t : Table α) (a : Nat) (h : Table.wf d t = true) :
    Table.get d (Table.mapValues d f t) a = f (Table.get d t a) := by
  induction t with
  | nil => exact hf.symm
  | cons x t ih =>
    obtain ⟨k, w⟩ := x
    obtain ⟨_, hk, ht⟩ := (Table.wf_cons k w t).1 h
    have hb : k = a → Table.get d (Table.mapValues d f t) a = d := fun hka =>
      Table.get_below _ _ fun e he => by
        obtain ⟨e', he', hke⟩ := Table.mem_mapValues f t e he
        rw [← hke, ← hka]; exact hk e' he'
    by_cases hw : f w = d <;> by_cases hka : k = a <;>
      simp [Table.mapValues, Table.get, hw, hka, ih ht]
    rw [← ih ht]; exact hb hka

/-- A stored word is read back. -/
theorem Memory.read_write_same (m : Memory) (a : Nat) (v : Word) (h : Memory.wf m = true) :
    (m.write a v).read a = v := Table.get_set_same m a v h

/-- Every other word of the memory reads as before. -/
theorem Memory.read_write_other (m : Memory) {a b : Nat} (v : Word) (h : b ≠ a) :
    (m.write a v).read b = m.read b := Table.get_set_other m v h

/-- A store keeps the canonical form. -/
theorem Memory.wf_write (m : Memory) (a : Nat) (v : Word) (h : Memory.wf m = true) :
    Memory.wf (m.write a v) = true := Table.wf_set m a v h

/-- The memory at RESET is in canonical form. -/
theorem Memory.wf_reset : Memory.wf State.reset.mem = true := rfl

end Sys2Proof.Machine
end

