-- ==== Sys2Proof/Laws/Frame.lean ====
section
/-! SUPPORT. What the shared operations leave alone: none of them writes the organ memory or the queue of
commands. (A store is the one operation that writes memory.) -/

set_option linter.unusedTactic false
set_option linter.unnecessarySeqFocus false
set_option linter.unreachableTactic false

namespace Sys2Proof.Machine

@[simp] theorem State.raise_mem (b : Block) (r : Report) (s : State) : (s.raise b r).mem = s.mem := by
  unfold State.raise; (try dsimp only); (repeat' split) <;> (try simp)
@[simp] theorem State.raise_pending (b : Block) (r : Report) (s : State) : (s.raise b r).pending = s.pending := by
  unfold State.raise; (try dsimp only); (repeat' split) <;> (try simp)
@[simp] theorem State.raiseAll_mem (b : Block) (l : List Report) (s : State) : (State.raiseAll b l s).mem = s.mem := by
  induction l generalizing s with
  | nil => rfl
  | cons x t ih => simp only [State.raiseAll]; (repeat' split) <;> simp [ih]
@[simp] theorem State.raiseAll_pending (b : Block) (l : List Report) (s : State) : (State.raiseAll b l s).pending = s.pending := by
  induction l generalizing s with
  | nil => rfl
  | cons x t ih => simp only [State.raiseAll]; (repeat' split) <;> simp [ih]
@[simp] theorem State.commandReport_mem (v : Word) (x : CommandResult) (y : Option CommandReason) (t : TrackerState) (m n : Nat) (s : State) : (s.commandReport v x y t m n).mem = s.mem := by
  unfold State.commandReport; (try dsimp only); (repeat' split) <;> (try simp)
@[simp] theorem State.commandReport_pending (v : Word) (x : CommandResult) (y : Option CommandReason) (t : TrackerState) (m n : Nat) (s : State) : (s.commandReport v x y t m n).pending = s.pending := by
  unfold State.commandReport; (try dsimp only); (repeat' split) <;> (try simp)
@[simp] theorem State.bringCounts_mem (s : State) : (s.bringCounts).mem = s.mem := by
  unfold State.bringCounts; (try dsimp only); (repeat' split) <;> (try simp)
@[simp] theorem State.bringCounts_pending (s : State) : (s.bringCounts).pending = s.pending := by
  unfold State.bringCounts; (try dsimp only); (repeat' split) <;> (try simp)
@[simp] theorem State.demandRefresh_mem (s : State) : s.demandRefresh.mem = s.mem := by
  unfold State.demandRefresh; (try dsimp only); (repeat' split) <;> (try simp)
@[simp] theorem State.demandRefresh_pending (s : State) : s.demandRefresh.pending = s.pending := by
  unfold State.demandRefresh; (try dsimp only); (repeat' split) <;> (try simp)
@[simp] theorem State.setConfig_mem (c : ConfigState) (s : State) : (s.setConfig c).mem = s.mem := by
  unfold State.setConfig; (try dsimp only); (repeat' split) <;> (try simp)
@[simp] theorem State.setConfig_pending (c : ConfigState) (s : State) : (s.setConfig c).pending = s.pending := by
  unfold State.setConfig; (try dsimp only); (repeat' split) <;> (try simp)
@[simp] theorem State.freeSlots_mem (l : List Nat) (s : State) : (State.freeSlots l s).mem = s.mem := by
  induction l generalizing s with
  | nil => rfl
  | cons x t ih => simp only [State.freeSlots]; (repeat' split) <;> simp [ih]
@[simp] theorem State.freeSlots_pending (l : List Nat) (s : State) : (State.freeSlots l s).pending = s.pending := by
  induction l generalizing s with
  | nil => rfl
  | cons x t ih => simp only [State.freeSlots]; (repeat' split) <;> simp [ih]
@[simp] theorem State.noteEmptied_mem (c : StarvedCause) (n : Option Nat) (s : State) : (s.noteEmptied c n).mem = s.mem := by
  unfold State.noteEmptied; (try dsimp only); (repeat' split) <;> (try simp)
@[simp] theorem State.noteEmptied_pending (c : StarvedCause) (n : Option Nat) (s : State) : (s.noteEmptied c n).pending = s.pending := by
  unfold State.noteEmptied; (try dsimp only); (repeat' split) <;> (try simp)
@[simp] theorem State.maskChange_mem (d : Division) (v : Word) (s : State) : (s.maskChange d v).mem = s.mem := by
  unfold State.maskChange; (try dsimp only); (repeat' split) <;> (try simp)
@[simp] theorem State.maskChange_pending (d : Division) (v : Word) (s : State) : (s.maskChange d v).pending = s.pending := by
  unfold State.maskChange; (try dsimp only); (repeat' split) <;> (try simp)
@[simp] theorem State.loadStart_mem (s : State) : s.loadStart.mem = s.mem := by
  unfold State.loadStart; (try dsimp only); (repeat' split) <;> (try simp)
@[simp] theorem State.loadStart_pending (s : State) : s.loadStart.pending = s.pending := by
  unfold State.loadStart; (try dsimp only); (repeat' split) <;> (try simp)
@[simp] theorem State.announce_mem (n : TrackerState) (c : StateCause) (s : State) : (s.announce n c).mem = s.mem := by
  unfold State.announce; (try dsimp only); (repeat' split) <;> (try simp)
@[simp] theorem State.announce_pending (n : TrackerState) (c : StateCause) (s : State) : (s.announce n c).pending = s.pending := by
  unfold State.announce; (try dsimp only); (repeat' split) <;> (try simp)
@[simp] theorem State.teardown_mem (s : State) : s.teardown.mem = s.mem := by
  unfold State.teardown; (try dsimp only); (repeat' split) <;> (try simp)
@[simp] theorem State.teardown_pending (s : State) : s.teardown.pending = s.pending := by
  unfold State.teardown; (try dsimp only); (repeat' split) <;> (try simp)
@[simp] theorem State.beginRun_mem (b : Bool) (s : State) : (s.beginRun b).mem = s.mem := by
  unfold State.beginRun; (try dsimp only); (repeat' split) <;> (try simp)
@[simp] theorem State.beginRun_pending (b : Bool) (s : State) : (s.beginRun b).pending = s.pending := by
  unfold State.beginRun; (try dsimp only); (repeat' split) <;> (try simp)
@[simp] theorem State.changeState_mem (n : TrackerState) (c : StateCause) (s : State) : (s.changeState n c).mem = s.mem := by
  unfold State.changeState; (try dsimp only); (repeat' split) <;> (try simp)
@[simp] theorem State.changeState_pending (n : TrackerState) (c : StateCause) (s : State) : (s.changeState n c).pending = s.pending := by
  unfold State.changeState; (try dsimp only); (repeat' split) <;> (try simp)
@[simp] theorem State.changeAll_mem (l : List (TrackerState × StateCause)) (s : State) : (State.changeAll l s).mem = s.mem := by
  induction l generalizing s with
  | nil => rfl
  | cons x t ih => simp only [State.changeAll]; (repeat' split) <;> simp [ih]
@[simp] theorem State.changeAll_pending (l : List (TrackerState × StateCause)) (s : State) : (State.changeAll l s).pending = s.pending := by
  induction l generalizing s with
  | nil => rfl
  | cons x t ih => simp only [State.changeAll]; (repeat' split) <;> simp [ih]
@[simp] theorem State.applyTracker_mem (r : TrackerResult) (s : State) : (s.applyTracker r).mem = s.mem := by
  unfold State.applyTracker; (try dsimp only); (repeat' split) <;> (try simp)
@[simp] theorem State.applyTracker_pending (r : TrackerResult) (s : State) : (s.applyTracker r).pending = s.pending := by
  unfold State.applyTracker; (try dsimp only); (repeat' split) <;> (try simp)
@[simp] theorem State.deliver_mem (m : Option Message) (s : State) : (s.deliver m).mem = s.mem := by
  unfold State.deliver; dsimp only; split_ifs <;> simp
@[simp] theorem State.deliver_pending (m : Option Message) (s : State) : (s.deliver m).pending = s.pending := by
  unfold State.deliver; dsimp only; split_ifs <;> simp
@[simp] theorem State.applyMatcher_mem (r : MatcherResult) (s : State) : (s.applyMatcher r).mem = s.mem := by
  unfold State.applyMatcher; (try dsimp only); (repeat' split) <;> (try simp)
@[simp] theorem State.applyMatcher_pending (r : MatcherResult) (s : State) : (s.applyMatcher r).pending = s.pending := by
  unfold State.applyMatcher; (try dsimp only); (repeat' split) <;> (try simp)
@[simp] theorem State.takeFused_mem (o : Option FusedOnset) (s : State) : (s.takeFused o).mem = s.mem := by
  unfold State.takeFused; (try dsimp only); (repeat' split) <;> (try simp)
@[simp] theorem State.takeFused_pending (o : Option FusedOnset) (s : State) : (s.takeFused o).pending = s.pending := by
  unfold State.takeFused; (try dsimp only); (repeat' split) <;> (try simp)
@[simp] theorem State.recomputeLag_mem (s : State) : s.recomputeLag.mem = s.mem := by
  unfold State.recomputeLag; (try dsimp only); (repeat' split) <;> (try simp)
@[simp] theorem State.recomputeLag_pending (s : State) : s.recomputeLag.pending = s.pending := by
  unfold State.recomputeLag; (try dsimp only); (repeat' split) <;> (try simp)
@[simp] theorem State.takeOnset_mem (o : Option Onset) (s : State) : (s.takeOnset o).mem = s.mem := by
  unfold State.takeOnset; (try dsimp only); (repeat' split) <;> (try simp)
@[simp] theorem State.takeOnset_pending (o : Option Onset) (s : State) : (s.takeOnset o).pending = s.pending := by
  unfold State.takeOnset; (try dsimp only); (repeat' split) <;> (try simp)
@[simp] theorem State.applyPickup_mem (k : PickupNo) (r : PickupResult) (s : State) : (s.applyPickup k r).mem = s.mem := by
  unfold State.applyPickup; (try dsimp only); (repeat' split) <;> (try simp)
@[simp] theorem State.applyPickup_pending (k : PickupNo) (r : PickupResult) (s : State) : (s.applyPickup k r).pending = s.pending := by
  unfold State.applyPickup; (try dsimp only); (repeat' split) <;> (try simp)
@[simp] theorem State.grant_mem (a : PortAccess) (s : State) : (s.grant a).mem = s.mem := by
  unfold State.grant; (try dsimp only); (repeat' split) <;> (try simp)
@[simp] theorem State.grant_pending (a : PortAccess) (s : State) : (s.grant a).pending = s.pending := by
  unfold State.grant; (try dsimp only); (repeat' split) <;> (try simp)
@[simp] theorem State.countYield_mem (s : State) : s.countYield.mem = s.mem := by
  unfold State.countYield; (try dsimp only); (repeat' split) <;> (try simp)
@[simp] theorem State.countYield_pending (s : State) : s.countYield.pending = s.pending := by
  unfold State.countYield; (try dsimp only); (repeat' split) <;> (try simp)
@[simp] theorem State.grantPart_mem (s : State) : s.grantPart.mem = s.mem := by
  unfold State.grantPart; (try dsimp only); (repeat' split) <;> (try simp)
@[simp] theorem State.grantPart_pending (s : State) : s.grantPart.pending = s.pending := by
  unfold State.grantPart; (try dsimp only); (repeat' split) <;> (try simp)
@[simp] theorem State.drop_mem (a : Nat) (v : Word) (r : DropRegion) (s : State) : (s.drop a v r).mem = s.mem := by
  unfold State.drop; (try dsimp only); (repeat' split) <;> (try simp)
@[simp] theorem State.drop_pending (a : Nat) (v : Word) (r : DropRegion) (s : State) : (s.drop a v r).pending = s.pending := by
  unfold State.drop; (try dsimp only); (repeat' split) <;> (try simp)
@[simp] theorem State.grantProcessor_mem (a : ProcAccess) (s : State) : (s.grantProcessor a).mem = s.mem := by
  unfold State.grantProcessor; (try dsimp only); (repeat' split) <;> (try simp)
@[simp] theorem State.grantProcessor_pending (a : ProcAccess) (s : State) : (s.grantProcessor a).pending = s.pending := by
  unfold State.grantProcessor; (try dsimp only); (repeat' split) <;> (try simp)
@[simp] theorem State.arbitrate_mem (s : State) : s.arbitrate.mem = s.mem := by
  unfold State.arbitrate; (try dsimp only); (repeat' split) <;> (try simp)
@[simp] theorem State.arbitrate_pending (s : State) : s.arbitrate.pending = s.pending := by
  unfold State.arbitrate; (try dsimp only); (repeat' split) <;> (try simp)
@[simp] theorem State.beginFetch_mem (s : State) : s.beginFetch.mem = s.mem := by
  unfold State.beginFetch; (try dsimp only); (repeat' split) <;> (try simp)
@[simp] theorem State.beginFetch_pending (s : State) : s.beginFetch.pending = s.pending := by
  unfold State.beginFetch; (try dsimp only); (repeat' split) <;> (try simp)
@[simp] theorem State.postFetch_mem (s : State) : s.postFetch.mem = s.mem := by
  unfold State.postFetch; (try dsimp only); (repeat' split) <;> (try simp)
@[simp] theorem State.postFetch_pending (s : State) : s.postFetch.pending = s.pending := by
  unfold State.postFetch; (try dsimp only); (repeat' split) <;> (try simp)
@[simp] theorem State.pump_mem (s : State) : s.pump.mem = s.mem := by
  unfold State.pump; (try dsimp only); (repeat' split) <;> (try simp)
@[simp] theorem State.pump_pending (s : State) : s.pump.pending = s.pending := by
  unfold State.pump; (try dsimp only); (repeat' split) <;> (try simp)
@[simp] theorem State.listSlot_mem (n : Nat) (v : Word) (s : State) : (s.listSlot n v).mem = s.mem := by
  unfold State.listSlot; (try dsimp only); (repeat' split) <;> (try simp)
@[simp] theorem State.listSlot_pending (n : Nat) (v : Word) (s : State) : (s.listSlot n v).pending = s.pending := by
  unfold State.listSlot; (try dsimp only); (repeat' split) <;> (try simp)
@[simp] theorem State.withdrawNote_mem (n : Nat) (s : State) : (s.withdrawNote n).mem = s.mem := by
  unfold State.withdrawNote; (try dsimp only); (repeat' split) <;> (try simp)
@[simp] theorem State.withdrawNote_pending (n : Nat) (s : State) : (s.withdrawNote n).pending = s.pending := by
  unfold State.withdrawNote; (try dsimp only); (repeat' split) <;> (try simp)
@[simp] theorem State.withdrawCue_mem (n : Nat) (s : State) : (s.withdrawCue n).mem = s.mem := by
  unfold State.withdrawCue; (try dsimp only); (repeat' split) <;> (try simp)
@[simp] theorem State.withdrawCue_pending (n : Nat) (s : State) : (s.withdrawCue n).pending = s.pending := by
  unfold State.withdrawCue; (try dsimp only); (repeat' split) <;> (try simp)
@[simp] theorem State.editSlot_mem (n : Nat) (s : State) : (s.editSlot n).mem = s.mem := by
  unfold State.editSlot; (try dsimp only); (repeat' split) <;> (try simp)
@[simp] theorem State.editSlot_pending (n : Nat) (s : State) : (s.editSlot n).pending = s.pending := by
  unfold State.editSlot; (try dsimp only); (repeat' split) <;> (try simp)
@[simp] theorem State.emptySlot_mem (n : Nat) (s : State) : (s.emptySlot n).mem = s.mem := by
  unfold State.emptySlot; (try dsimp only); (repeat' split) <;> (try simp)
@[simp] theorem State.emptySlot_pending (n : Nat) (s : State) : (s.emptySlot n).pending = s.pending := by
  unfold State.emptySlot; (try dsimp only); (repeat' split) <;> (try simp)
@[simp] theorem State.commitSlot_mem (n : Nat) (v : Word) (s : State) : (s.commitSlot n v).mem = s.mem := by
  unfold State.commitSlot; (try dsimp only); (repeat' split) <;> (try simp)
@[simp] theorem State.commitSlot_pending (n : Nat) (v : Word) (s : State) : (s.commitSlot n v).pending = s.pending := by
  unfold State.commitSlot; (try dsimp only); (repeat' split) <;> (try simp)
@[simp] theorem State.scoreWrite_mem (n k : Nat) (v : Word) (s : State) : (s.scoreWrite n k v).mem = s.mem := by
  unfold State.scoreWrite; (try dsimp only); (repeat' split) <;> (try simp)
@[simp] theorem State.scoreWrite_pending (n k : Nat) (v : Word) (s : State) : (s.scoreWrite n k v).pending = s.pending := by
  unfold State.scoreWrite; (try dsimp only); (repeat' split) <;> (try simp)
@[simp] theorem State.admitted_mem (n : Nat) (v : SlotState) (s : State) : (s.admitted n v).mem = s.mem := by
  unfold State.admitted; (try dsimp only); (repeat' split) <;> (try simp)
@[simp] theorem State.admitted_pending (n : Nat) (v : SlotState) (s : State) : (s.admitted n v).pending = s.pending := by
  unfold State.admitted; (try dsimp only); (repeat' split) <;> (try simp)
@[simp] theorem State.offerHold_mem (e : HoldEntry) (s : State) : (s.offerHold e).mem = s.mem := by
  unfold State.offerHold; (try dsimp only); (repeat' split) <;> (try simp)
@[simp] theorem State.offerHold_pending (e : HoldEntry) (s : State) : (s.offerHold e).pending = s.pending := by
  unfold State.offerHold; (try dsimp only); (repeat' split) <;> (try simp)
@[simp] theorem State.offerCue_mem (e : CueEntry) (s : State) : (s.offerCue e).mem = s.mem := by
  unfold State.offerCue; (try dsimp only); (repeat' split) <;> (try simp)
@[simp] theorem State.offerCue_pending (e : CueEntry) (s : State) : (s.offerCue e).pending = s.pending := by
  unfold State.offerCue; (try dsimp only); (repeat' split) <;> (try simp)
@[simp] theorem State.placeRecord_mem (n : Nat) (r : FetchedRecord) (s : State) : (s.placeRecord n r).mem = s.mem := by
  unfold State.placeRecord; (try dsimp only); (repeat' split) <;> (try simp)
@[simp] theorem State.placeRecord_pending (n : Nat) (r : FetchedRecord) (s : State) : (s.placeRecord n r).pending = s.pending := by
  unfold State.placeRecord; (try dsimp only); (repeat' split) <;> (try simp)
@[simp] theorem State.judgeRecord_mem (i : Installed) (n : Nat) (r : FetchedRecord) (s : State) : (s.judgeRecord i n r).mem = s.mem := by
  unfold State.judgeRecord; (try dsimp only); (repeat' split) <;> (try simp)
@[simp] theorem State.judgeRecord_pending (i : Installed) (n : Nat) (r : FetchedRecord) (s : State) : (s.judgeRecord i n r).pending = s.pending := by
  unfold State.judgeRecord; (try dsimp only); (repeat' split) <;> (try simp)
@[simp] theorem State.fetchWord_mem (v : Word) (s : State) : (s.fetchWord v).mem = s.mem := by
  unfold State.fetchWord; (try dsimp only); (repeat' split) <;> (try simp)
@[simp] theorem State.fetchWord_pending (v : Word) (s : State) : (s.fetchWord v).pending = s.pending := by
  unfold State.fetchWord; (try dsimp only); (repeat' split) <;> (try simp)
@[simp] theorem State.anchorCommit_mem (s : State) : s.anchorCommit.mem = s.mem := by
  unfold State.anchorCommit; (try dsimp only); (repeat' split) <;> (try simp)
@[simp] theorem State.anchorCommit_pending (s : State) : s.anchorCommit.pending = s.pending := by
  unfold State.anchorCommit; (try dsimp only); (repeat' split) <;> (try simp)
@[simp] theorem State.takeHeldMasks_mem (held : Vector (Option Word) 4) (l : List Division) (s : State) : (State.takeHeldMasks held l s).mem = s.mem := by
  induction l generalizing s with
  | nil => rfl
  | cons x t ih => simp only [State.takeHeldMasks]; (repeat' split) <;> simp [ih]
@[simp] theorem State.takeHeldMasks_pending (held : Vector (Option Word) 4) (l : List Division) (s : State) : (State.takeHeldMasks held l s).pending = s.pending := by
  induction l generalizing s with
  | nil => rfl
  | cons x t ih => simp only [State.takeHeldMasks]; (repeat' split) <;> simp [ih]
@[simp] theorem State.enterConfigured_mem (s : State) : s.enterConfigured.mem = s.mem := by
  unfold State.enterConfigured; (try dsimp only); (repeat' split) <;> (try simp)
@[simp] theorem State.enterConfigured_pending (s : State) : s.enterConfigured.pending = s.pending := by
  unfold State.enterConfigured; (try dsimp only); (repeat' split) <;> (try simp)
@[simp] theorem State.sweepIfStopping_mem (s : State) : s.sweepIfStopping.mem = s.mem := by
  unfold State.sweepIfStopping; (try dsimp only); (repeat' split) <;> (try simp)
@[simp] theorem State.sweepIfStopping_pending (s : State) : s.sweepIfStopping.pending = s.pending := by
  unfold State.sweepIfStopping; (try dsimp only); (repeat' split) <;> (try simp)
@[simp] theorem State.rejectAnchor_mem (r : AnchorReason) (s : State) : (s.rejectAnchor r).mem = s.mem := by
  unfold State.rejectAnchor; (try dsimp only); (repeat' split) <;> (try simp)
@[simp] theorem State.rejectAnchor_pending (r : AnchorReason) (s : State) : (s.rejectAnchor r).pending = s.pending := by
  unfold State.rejectAnchor; (try dsimp only); (repeat' split) <;> (try simp)
@[simp] theorem State.takeRaised_mem (s : State) : (s.takeRaised).mem = s.mem := by
  unfold State.takeRaised; (try dsimp only); (repeat' split) <;> (try simp)
@[simp] theorem State.takeRaised_pending (s : State) : (s.takeRaised).pending = s.pending := by
  unfold State.takeRaised; (try dsimp only); (repeat' split) <;> (try simp)
@[simp] theorem State.install_mem (ws : List Word) (s : State) : (s.install ws).mem = s.mem := by
  unfold State.install; (try dsimp only); (repeat' split) <;> (try simp)
@[simp] theorem State.install_pending (ws : List Word) (s : State) : (s.install ws).pending = s.pending := by
  unfold State.install; (try dsimp only); (repeat' split) <;> (try simp)
@[simp] theorem State.judgeAnchor_mem (ws : List Word) (s : State) : (s.judgeAnchor ws).mem = s.mem := by
  unfold State.judgeAnchor; (try dsimp only); (repeat' split) <;> (try simp)
@[simp] theorem State.judgeAnchor_pending (ws : List Word) (s : State) : (s.judgeAnchor ws).pending = s.pending := by
  unfold State.judgeAnchor; (try dsimp only); (repeat' split) <;> (try simp)
@[simp] theorem State.anchorReadWord_mem (v : Word) (s : State) : (s.anchorReadWord v).mem = s.mem := by
  unfold State.anchorReadWord; (try dsimp only); (repeat' split) <;> (try simp)
@[simp] theorem State.anchorReadWord_pending (v : Word) (s : State) : (s.anchorReadWord v).pending = s.pending := by
  unfold State.anchorReadWord; (try dsimp only); (repeat' split) <;> (try simp)
@[simp] theorem State.stopMaskWrite_mem (d : Division) (v : Word) (s : State) : (s.stopMaskWrite d v).mem = s.mem := by
  unfold State.stopMaskWrite; (try dsimp only); (repeat' split) <;> (try simp)
@[simp] theorem State.stopMaskWrite_pending (d : Division) (v : Word) (s : State) : (s.stopMaskWrite d v).pending = s.pending := by
  unfold State.stopMaskWrite; (try dsimp only); (repeat' split) <;> (try simp)
@[simp] theorem State.pickupHeldWrite_mem (k : PickupNo) (s : State) : (s.pickupHeldWrite k).mem = s.mem := by
  unfold State.pickupHeldWrite; (try dsimp only); (repeat' split) <;> (try simp)
@[simp] theorem State.pickupHeldWrite_pending (k : PickupNo) (s : State) : (s.pickupHeldWrite k).pending = s.pending := by
  unfold State.pickupHeldWrite; (try dsimp only); (repeat' split) <;> (try simp)
@[simp] theorem State.pickupCommitWrite_mem (k : PickupNo) (v : Word) (s : State) : (s.pickupCommitWrite k v).mem = s.mem := by
  unfold State.pickupCommitWrite; (try dsimp only); (repeat' split) <;> (try simp)
@[simp] theorem State.pickupCommitWrite_pending (k : PickupNo) (v : Word) (s : State) : (s.pickupCommitWrite k v).pending = s.pending := by
  unfold State.pickupCommitWrite; (try dsimp only); (repeat' split) <;> (try simp)
@[simp] theorem State.pickupWord_mem (v : Word) (s : State) : (s.pickupWord v).mem = s.mem := by
  unfold State.pickupWord; (try dsimp only); (repeat' split) <;> (try simp)
@[simp] theorem State.pickupWord_pending (v : Word) (s : State) : (s.pickupWord v).pending = s.pending := by
  unfold State.pickupWord; (try dsimp only); (repeat' split) <;> (try simp)
@[simp] theorem State.askClear_mem (s : State) : s.askClear.mem = s.mem := by
  unfold State.askClear; (try dsimp only); (repeat' split) <;> (try simp)
@[simp] theorem State.askClear_pending (s : State) : s.askClear.pending = s.pending := by
  unfold State.askClear; (try dsimp only); (repeat' split) <;> (try simp)
@[simp] theorem State.leaveWinding_mem (s : State) : s.leaveWinding.mem = s.mem := by
  unfold State.leaveWinding; (try dsimp only); (repeat' split) <;> (try simp)
@[simp] theorem State.leaveWinding_pending (s : State) : s.leaveWinding.pending = s.pending := by
  unfold State.leaveWinding; (try dsimp only); (repeat' split) <;> (try simp)
@[simp] theorem State.takeClearAnswer_mem (s : State) : s.takeClearAnswer.mem = s.mem := by
  unfold State.takeClearAnswer; (try dsimp only); (repeat' split) <;> (try simp)
@[simp] theorem State.takeClearAnswer_pending (s : State) : s.takeClearAnswer.pending = s.pending := by
  unfold State.takeClearAnswer; (try dsimp only); (repeat' split) <;> (try simp)
@[simp] theorem State.reportReady_mem (s : State) : s.reportReady.mem = s.mem := by
  unfold State.reportReady; (try dsimp only); (repeat' split) <;> (try simp)
@[simp] theorem State.reportReady_pending (s : State) : s.reportReady.pending = s.pending := by
  unfold State.reportReady; (try dsimp only); (repeat' split) <;> (try simp)
@[simp] theorem State.runAfterLimit_mem (s : State) : s.runAfterLimit.mem = s.mem := rfl
@[simp] theorem State.runAfterLimit_pending (s : State) : s.runAfterLimit.pending = s.pending := rfl
@[simp] theorem State.runAfterSettle_mem (s : State) : s.runAfterSettle.mem = s.mem := by
  unfold State.runAfterSettle; (try dsimp only); (repeat' split) <;> (try simp)
@[simp] theorem State.runAfterSettle_pending (s : State) : s.runAfterSettle.pending = s.pending := by
  unfold State.runAfterSettle; (try dsimp only); (repeat' split) <;> (try simp)
@[simp] theorem State.runAfterDrop_mem (s : State) : s.runAfterDrop.mem = s.mem := by
  unfold State.runAfterDrop; (try dsimp only); (repeat' split) <;> (try simp)
@[simp] theorem State.runAfterDrop_pending (s : State) : s.runAfterDrop.pending = s.pending := by
  unfold State.runAfterDrop; (try dsimp only); (repeat' split) <;> (try simp)
@[simp] theorem State.runAfterCancel_mem (s : State) : s.runAfterCancel.mem = s.mem := by
  unfold State.runAfterCancel; (try dsimp only); (repeat' split) <;> (try simp)
@[simp] theorem State.runAfterCancel_pending (s : State) : s.runAfterCancel.pending = s.pending := by
  unfold State.runAfterCancel; (try dsimp only); (repeat' split) <;> (try simp)
@[simp] theorem State.runFrame_mem (c w : Bool) (s : State) : (s.runFrame c w).mem = s.mem := by
  unfold State.runFrame; (try dsimp only); (repeat' split) <;> (try simp)
@[simp] theorem State.runFrame_pending (c w : Bool) (s : State) : (s.runFrame c w).pending = s.pending := by
  unfold State.runFrame; (try dsimp only); (repeat' split) <;> (try simp)
@[simp] theorem State.cancelEffect_mem (s : State) : s.cancelEffect.mem = s.mem := by
  unfold State.cancelEffect; (try dsimp only); (repeat' split) <;> (try simp)
@[simp] theorem State.cancelEffect_pending (s : State) : s.cancelEffect.pending = s.pending := by
  unfold State.cancelEffect; (try dsimp only); (repeat' split) <;> (try simp)
@[simp] theorem State.runCancelAssert_mem (s : State) : s.runCancelAssert.mem = s.mem := by
  unfold State.runCancelAssert; (try dsimp only); (repeat' split) <;> (try simp)
@[simp] theorem State.runCancelAssert_pending (s : State) : s.runCancelAssert.pending = s.pending := by
  unfold State.runCancelAssert; (try dsimp only); (repeat' split) <;> (try simp)
@[simp] theorem State.runCancelRelease_mem (s : State) : s.runCancelRelease.mem = s.mem := by
  unfold State.runCancelRelease; (try dsimp only); (repeat' split) <;> (try simp)
@[simp] theorem State.runCancelRelease_pending (s : State) : s.runCancelRelease.pending = s.pending := by
  unfold State.runCancelRelease; (try dsimp only); (repeat' split) <;> (try simp)
@[simp] theorem State.haltByDrop_mem (s : State) : s.haltByDrop.mem = s.mem := by
  unfold State.haltByDrop; (try dsimp only); (repeat' split) <;> (try simp)
@[simp] theorem State.haltByDrop_pending (s : State) : s.haltByDrop.pending = s.pending := by
  unfold State.haltByDrop; (try dsimp only); (repeat' split) <;> (try simp)
@[simp] theorem State.runDrop_mem (s : State) : s.runDrop.mem = s.mem := by
  unfold State.runDrop; (try dsimp only); (repeat' split) <;> (try simp)
@[simp] theorem State.runDrop_pending (s : State) : s.runDrop.pending = s.pending := by
  unfold State.runDrop; (try dsimp only); (repeat' split) <;> (try simp)
@[simp] theorem State.runConfirm_mem (s : State) : s.runConfirm.mem = s.mem := by
  unfold State.runConfirm; (try dsimp only); (repeat' split) <;> (try simp)
@[simp] theorem State.runConfirm_pending (s : State) : s.runConfirm.pending = s.pending := by
  unfold State.runConfirm; (try dsimp only); (repeat' split) <;> (try simp)
@[simp] theorem State.runLimit_mem (s : State) : s.runLimit.mem = s.mem := by
  unfold State.runLimit; (try dsimp only); (repeat' split) <;> (try simp)
@[simp] theorem State.runLimit_pending (s : State) : s.runLimit.pending = s.pending := by
  unfold State.runLimit; (try dsimp only); (repeat' split) <;> (try simp)
@[simp] theorem State.runHold_mem (s : State) : s.runHold.mem = s.mem := by
  unfold State.runHold; (try dsimp only); (repeat' split) <;> (try simp)
@[simp] theorem State.runHold_pending (s : State) : s.runHold.pending = s.pending := by
  unfold State.runHold; (try dsimp only); (repeat' split) <;> (try simp)
@[simp] theorem State.runStage_mem (s : State) : s.runStage.mem = s.mem := by
  unfold State.runStage; (try dsimp only); (repeat' split) <;> (try simp)
@[simp] theorem State.runStage_pending (s : State) : s.runStage.pending = s.pending := by
  unfold State.runStage; (try dsimp only); (repeat' split) <;> (try simp)
@[simp] theorem State.finishRun_mem (s : State) : s.finishRun.mem = s.mem := by
  unfold State.finishRun; (try dsimp only); (repeat' split) <;> (try simp)
@[simp] theorem State.finishRun_pending (s : State) : s.finishRun.pending = s.pending := by
  unfold State.finishRun; (try dsimp only); (repeat' split) <;> (try simp)
@[simp] theorem State.dropBelow_mem (n : Nat) (s : State) : (s.dropBelow n).mem = s.mem := by
  unfold State.dropBelow; (try dsimp only); (repeat' split) <;> (try simp)
@[simp] theorem State.dropBelow_pending (n : Nat) (s : State) : (s.dropBelow n).pending = s.pending := by
  unfold State.dropBelow; (try dsimp only); (repeat' split) <;> (try simp)
@[simp] theorem State.acceptStart_mem (s : State) : s.acceptStart.mem = s.mem := by
  unfold State.acceptStart; (try dsimp only); (repeat' split) <;> (try simp)
@[simp] theorem State.acceptStart_pending (s : State) : s.acceptStart.pending = s.pending := by
  unfold State.acceptStart; (try dsimp only); (repeat' split) <;> (try simp)
@[simp] theorem State.takeStart_mem (i : Installed) (s : State) : (s.takeStart i).mem = s.mem := by
  unfold State.takeStart; (try dsimp only); (repeat' split) <;> (try simp)
@[simp] theorem State.takeStart_pending (i : Installed) (s : State) : (s.takeStart i).pending = s.pending := by
  unfold State.takeStart; (try dsimp only); (repeat' split) <;> (try simp)
@[simp] theorem State.takeStop_mem (s : State) : s.takeStop.mem = s.mem := by
  unfold State.takeStop; (try dsimp only); (repeat' split) <;> (try simp)
@[simp] theorem State.takeStop_pending (s : State) : s.takeStop.pending = s.pending := by
  unfold State.takeStop; (try dsimp only); (repeat' split) <;> (try simp)
@[simp] theorem State.takeResume_mem (s : State) : s.takeResume.mem = s.mem := by
  unfold State.takeResume; (try dsimp only); (repeat' split) <;> (try simp)
@[simp] theorem State.takeResume_pending (s : State) : s.takeResume.pending = s.pending := by
  unfold State.takeResume; (try dsimp only); (repeat' split) <;> (try simp)
@[simp] theorem State.command_mem (v : Word) (s : State) : (s.command v).mem = s.mem := by
  unfold State.command; (try dsimp only); (repeat' split) <;> (try simp)
@[simp] theorem State.command_pending (v : Word) (s : State) : (s.command v).pending = s.pending := by
  unfold State.command; (try dsimp only); (repeat' split) <;> (try simp)
@[simp] theorem State.consumerWrite_mem (v : Word) (s : State) : (s.consumerWrite v).mem = s.mem := by
  unfold State.consumerWrite; (try dsimp only); (repeat' split) <;> (try simp)
@[simp] theorem State.consumerWrite_pending (v : Word) (s : State) : (s.consumerWrite v).pending = s.pending := by
  unfold State.consumerWrite; (try dsimp only); (repeat' split) <;> (try simp)
@[simp] theorem State.runBlockCopy_mem (x : RunWord) (v : Word) (s : State) : (s.runBlockCopy x v).mem = s.mem := rfl
@[simp] theorem State.runBlockCopy_pending (x : RunWord) (v : Word) (s : State) : (s.runBlockCopy x v).pending = s.pending := rfl
@[simp] theorem State.anchorSnoop_mem (n : Nat) (v : Word) (s : State) : (s.anchorSnoop n v).mem = s.mem := by
  unfold State.anchorSnoop; (try dsimp only); (repeat' split) <;> (try simp)
@[simp] theorem State.anchorSnoop_pending (n : Nat) (v : Word) (s : State) : (s.anchorSnoop n v).pending = s.pending := by
  unfold State.anchorSnoop; (try dsimp only); (repeat' split) <;> (try simp)
@[simp] theorem State.snoop_mem (a : Nat) (v : Word) (s : State) : (s.snoop a v).mem = s.mem := by
  unfold State.snoop; (try dsimp only); (repeat' split) <;> (try simp)
@[simp] theorem State.snoop_pending (a : Nat) (v : Word) (s : State) : (s.snoop a v).pending = s.pending := by
  unfold State.snoop; (try dsimp only); (repeat' split) <;> (try simp)
@[simp] theorem State.finishChestWrite_mem (b : Bool) (s : State) : (s.finishChestWrite b).mem = s.mem := by
  unfold State.finishChestWrite; (try dsimp only); (repeat' split) <;> (try simp)
@[simp] theorem State.finishChestWrite_pending (b : Bool) (s : State) : (s.finishChestWrite b).pending = s.pending := by
  unfold State.finishChestWrite; (try dsimp only); (repeat' split) <;> (try simp)
@[simp] theorem State.finishReportWrite_mem (s : State) : s.finishReportWrite.mem = s.mem := by
  unfold State.finishReportWrite; (try dsimp only); (repeat' split) <;> (try simp)
@[simp] theorem State.finishReportWrite_pending (s : State) : s.finishReportWrite.pending = s.pending := by
  unfold State.finishReportWrite; (try dsimp only); (repeat' split) <;> (try simp)
@[simp] theorem State.grantWriteBack_mem (s : State) : s.grantWriteBack.mem = s.mem := by
  unfold State.grantWriteBack; (try dsimp only); (repeat' split) <;> (try simp)
@[simp] theorem State.grantWriteBack_pending (s : State) : s.grantWriteBack.pending = s.pending := by
  unfold State.grantWriteBack; (try dsimp only); (repeat' split) <;> (try simp)
@[simp] theorem State.markDue_mem (s : State) : s.markDue.mem = s.mem := by
  unfold State.markDue; (try dsimp only); (repeat' split) <;> (try simp)
@[simp] theorem State.markDue_pending (s : State) : s.markDue.pending = s.pending := by
  unfold State.markDue; (try dsimp only); (repeat' split) <;> (try simp)
@[simp] theorem State.closeWindow_mem (s : State) : s.closeWindow.mem = s.mem := by
  unfold State.closeWindow; (try dsimp only); (repeat' split) <;> (try simp)
@[simp] theorem State.closeWindow_pending (s : State) : s.closeWindow.pending = s.pending := by
  unfold State.closeWindow; (try dsimp only); (repeat' split) <;> (try simp)
@[simp] theorem State.expireWait_mem (s : State) : s.expireWait.mem = s.mem := by
  unfold State.expireWait; (try dsimp only); (repeat' split) <;> (try simp)
@[simp] theorem State.expireWait_pending (s : State) : s.expireWait.pending = s.pending := by
  unfold State.expireWait; (try dsimp only); (repeat' split) <;> (try simp)
@[simp] theorem State.finishFrame_mem (s : State) : s.finishFrame.mem = s.mem := by
  unfold State.finishFrame; (try dsimp only); (repeat' split) <;> (try simp)
@[simp] theorem State.finishFrame_pending (s : State) : s.finishFrame.pending = s.pending := by
  unfold State.finishFrame; (try dsimp only); (repeat' split) <;> (try simp)
@[simp] theorem State.frameRefresh_mem (s : State) : s.frameRefresh.mem = s.mem := by
  unfold State.frameRefresh; (try dsimp only); (repeat' split) <;> (try simp)
@[simp] theorem State.frameRefresh_pending (s : State) : s.frameRefresh.pending = s.pending := by
  unfold State.frameRefresh; (try dsimp only); (repeat' split) <;> (try simp)
@[simp] theorem State.trackerFrame_mem (s : State) : s.trackerFrame.mem = s.mem := by
  unfold State.trackerFrame; (try dsimp only); (repeat' split) <;> (try simp)
@[simp] theorem State.trackerFrame_pending (s : State) : s.trackerFrame.pending = s.pending := by
  unfold State.trackerFrame; (try dsimp only); (repeat' split) <;> (try simp)
@[simp] theorem State.expireCues_mem (x y n : Nat) (s : State) : (State.expireCues x y n s).mem = s.mem := by
  induction n generalizing s with
  | zero => rfl
  | succ n ih => simp only [State.expireCues]; (repeat' split) <;> simp [ih]
@[simp] theorem State.expireCues_pending (x y n : Nat) (s : State) : (State.expireCues x y n s).pending = s.pending := by
  induction n generalizing s with
  | zero => rfl
  | succ n ih => simp only [State.expireCues]; (repeat' split) <;> simp [ih]
@[simp] theorem State.matcherFrame_mem (s : State) : s.matcherFrame.mem = s.mem := by
  unfold State.matcherFrame; (try dsimp only); (repeat' split) <;> (try simp)
@[simp] theorem State.matcherFrame_pending (s : State) : s.matcherFrame.pending = s.pending := by
  unfold State.matcherFrame; (try dsimp only); (repeat' split) <;> (try simp)
@[simp] theorem State.frameBlocks_mem (c w : Bool) (o : FrameOrder) (s : State) : (s.frameBlocks c w o).mem = s.mem := by
  unfold State.frameBlocks; (try dsimp only); (repeat' split) <;> (try simp)
@[simp] theorem State.frameBlocks_pending (c w : Bool) (o : FrameOrder) (s : State) : (s.frameBlocks c w o).pending = s.pending := by
  unfold State.frameBlocks; (try dsimp only); (repeat' split) <;> (try simp)
@[simp] theorem State.takeTimeout_mem (k : PickupNo) (s : State) : (s.takeTimeout k).mem = s.mem := by
  unfold State.takeTimeout; (try dsimp only); (repeat' split) <;> (try simp)
@[simp] theorem State.takeTimeout_pending (k : PickupNo) (s : State) : (s.takeTimeout k).pending = s.pending := by
  unfold State.takeTimeout; (try dsimp only); (repeat' split) <;> (try simp)
@[simp] theorem State.releaseReport_mem (i : Installed) (e : HoldEntry) (s : State) : (s.releaseReport i e).mem = s.mem := by
  unfold State.releaseReport; (try dsimp only); (repeat' split) <;> (try simp)
@[simp] theorem State.releaseReport_pending (i : Installed) (e : HoldEntry) (s : State) : (s.releaseReport i e).pending = s.pending := by
  unfold State.releaseReport; (try dsimp only); (repeat' split) <;> (try simp)
@[simp] theorem State.noteAction_mem (i : Installed) (e : HoldEntry) (b : Bool) (s : State) : (s.noteAction i e b).mem = s.mem := by
  unfold State.noteAction; (try dsimp only); (repeat' split) <;> (try simp)
@[simp] theorem State.noteAction_pending (i : Installed) (e : HoldEntry) (b : Bool) (s : State) : (s.noteAction i e b).pending = s.pending := by
  unfold State.noteAction; (try dsimp only); (repeat' split) <;> (try simp)
@[simp] theorem State.registration_mem (e : HoldEntry) (s : State) : (s.registration e).mem = s.mem := by
  unfold State.registration; (try dsimp only); (repeat' split) <;> (try simp)
@[simp] theorem State.registration_pending (e : HoldEntry) (s : State) : (s.registration e).pending = s.pending := by
  unfold State.registration; (try dsimp only); (repeat' split) <;> (try simp)
@[simp] theorem State.dispatch_mem (i : Installed) (e : HoldEntry) (s : State) : (s.dispatch i e).mem = s.mem := by
  unfold State.dispatch; (try dsimp only); (repeat' split) <;> (try simp)
@[simp] theorem State.dispatch_pending (i : Installed) (e : HoldEntry) (s : State) : (s.dispatch i e).pending = s.pending := by
  unfold State.dispatch; (try dsimp only); (repeat' split) <;> (try simp)
@[simp] theorem State.loaderTakesSweepEnd_mem (s : State) : s.loaderTakesSweepEnd.mem = s.mem := by
  unfold State.loaderTakesSweepEnd; (try dsimp only); (repeat' split) <;> (try simp)
@[simp] theorem State.loaderTakesSweepEnd_pending (s : State) : s.loaderTakesSweepEnd.pending = s.pending := by
  unfold State.loaderTakesSweepEnd; (try dsimp only); (repeat' split) <;> (try simp)
@[simp] theorem State.trackerTakesSweepEnd_mem (s : State) : s.trackerTakesSweepEnd.mem = s.mem := by
  unfold State.trackerTakesSweepEnd; (try dsimp only); (repeat' split) <;> (try simp)
@[simp] theorem State.trackerTakesSweepEnd_pending (s : State) : s.trackerTakesSweepEnd.pending = s.pending := by
  unfold State.trackerTakesSweepEnd; (try dsimp only); (repeat' split) <;> (try simp)
@[simp] theorem State.takeSweepEnd_mem (w : Sweep) (s : State) : (s.takeSweepEnd w).mem = s.mem := by
  unfold State.takeSweepEnd; (try dsimp only); (repeat' split) <;> (try simp)
@[simp] theorem State.takeSweepEnd_pending (w : Sweep) (s : State) : (s.takeSweepEnd w).pending = s.pending := by
  unfold State.takeSweepEnd; (try dsimp only); (repeat' split) <;> (try simp)
@[simp] theorem State.endOff_mem (s : State) : (s.endOff).mem = s.mem := by
  unfold State.endOff; (try dsimp only); (repeat' split) <;> (try simp)
@[simp] theorem State.endOff_pending (s : State) : (s.endOff).pending = s.pending := by
  unfold State.endOff; (try dsimp only); (repeat' split) <;> (try simp)
@[simp] theorem State.reportsFor_mem (b : Block) (s : State) : (s.reportsFor b).mem = s.mem := by
  unfold State.reportsFor; (try dsimp only); (repeat' split) <;> (try simp)
@[simp] theorem State.reportsFor_pending (b : Block) (s : State) : (s.reportsFor b).pending = s.pending := by
  unfold State.reportsFor; (try dsimp only); (repeat' split) <;> (try simp)
@[simp] theorem State.beginRefresh_mem (i : Installed) (s : State) : (s.beginRefresh i).mem = s.mem := rfl
@[simp] theorem State.beginRefresh_pending (i : Installed) (s : State) : (s.beginRefresh i).pending = s.pending := rfl

end Sys2Proof.Machine
end

