-- ==== Sys2Proof/Laws/Access.lean ====
section
/-! SUPPORT. A processor access from its arrival, and what the arbiter and the fetch do after an event: each
lemma says once everything its operation can do. -/

namespace Sys2Proof.Machine

/-! ### The arbiter and the fetch -/

/-- A state is itself but for the traffic on the port. -/
theorem trafficFrame_refl (s : State) : trafficFrame s s :=
  ⟨⟨s.admission, s.path.port, s.spaceWait, rfl⟩, rfl, rfl, fun _ => rfl, fun _ _ => rfl⟩

/-- Traffic after traffic. -/
theorem trafficFrame_trans {s t u : State} (h : trafficFrame s t) (k : trafficFrame t u) :
    trafficFrame s u := by
  obtain ⟨⟨a, p, x, rfl⟩, hl, hn, hf, hs⟩ := h
  obtain ⟨⟨b, q, y, rfl⟩, kl, kn, kf, ks⟩ := k
  refine ⟨⟨b, q, y, rfl⟩, kl.trans hl, kn.trans hn, fun hne => ?_, fun n hh => ?_⟩
  · have h1 := hf hne
    exact (kf (by rw [h1]; exact hne)).trans h1
  · refine (ks n ?_).trans (hs n hh)
    rintro ⟨e, r, he, hr⟩
    exact hh ⟨e, r, hl ▸ he, hr⟩

/-- The begin of a fetch is traffic. -/
theorem trafficFrame_beginFetch (s : State) : trafficFrame s s.beginFetch := by
  unfold State.beginFetch
  split
  · exact trafficFrame_refl s
  · next e rest he =>
    split
    · next hc =>
      refine ⟨⟨_, s.path.port, _, rfl⟩, rfl, rfl, fun hf => ?_, fun n hn => ?_⟩
      · simp only [Bool.and_eq_true, Option.isNone_iff_eq_none] at hc
        exact absurd hc.2 hf
      · show Table.get _ (Table.set _ s.admission.slots e.slot _) n = _
        exact Table.get_set_other _ _ (fun hne => hn ⟨e, rest, he, hne.symm⟩)
    · exact trafficFrame_refl s

/-- The request of a fetch read is traffic. -/
theorem trafficFrame_postFetch (s : State) : trafficFrame s s.postFetch := by
  unfold State.postFetch
  split
  · split
    · exact ⟨⟨_, s.path.port, _, rfl⟩, rfl, rfl, fun _ => rfl, fun _ _ => rfl⟩
    · exact trafficFrame_refl s
  · exact trafficFrame_refl s

/-- The highest part request, when it is a write-back, is the oldest entry's. -/
theorem State.countYield_idle (s : State) (h : s.path.waiting = none) : s.countYield = s := by
  simp [State.countYield, h]

/-- A grant to the part with no processor access waiting is traffic. -/
theorem trafficFrame_grantPart (s : State) (h : s.path.waiting = none) :
    trafficFrame s s.grantPart := by
  unfold State.grantPart
  split
  · exact trafficFrame_refl s
  · exact trafficFrame_refl s
  · next a hne _ =>
    rw [State.countYield_idle s h]
    unfold State.grant
    cases a with
    | writeBack x y => exact absurd rfl (hne x y)
    | fetchRead x y => exact ⟨⟨_, _, _, rfl⟩, rfl, rfl, fun _ => rfl, fun _ _ => rfl⟩
    | _ => exact ⟨⟨s.admission, _, _, rfl⟩, rfl, rfl, fun _ => rfl, fun _ _ => rfl⟩

/-- Arbitration with no processor access waiting is traffic. -/
theorem trafficFrame_arbitrate (s : State) (h : s.path.waiting = none) :
    trafficFrame s s.arbitrate := by
  unfold State.arbitrate
  split
  · exact trafficFrame_refl s
  · simp only [h]; exact trafficFrame_grantPart s h

@[simp] theorem State.beginFetch_path (s : State) : s.beginFetch.path = s.path := by
  unfold State.beginFetch; split
  · rfl
  · split <;> rfl

@[simp] theorem State.postFetch_path (s : State) : s.postFetch.path = s.path := by
  unfold State.postFetch; split
  · split <;> rfl
  · rfl

/-- Whether the release engine waits is settled beside the traffic (R26). -/
theorem trafficFrame_settleWait (s : State) : trafficFrame s s.settleWait :=
  ⟨⟨s.admission, s.path.port, _, rfl⟩, rfl, rfl, fun _ => rfl, fun _ _ => rfl⟩

/-- What follows an event, with no processor access waiting, is traffic. -/
theorem trafficFrame_pump (s : State) (h : s.path.waiting = none) : trafficFrame s s.pump :=
  trafficFrame_trans (trafficFrame_trans (trafficFrame_trans (trafficFrame_beginFetch s)
    (trafficFrame_postFetch _)) (trafficFrame_arbitrate _ (by simpa using h)))
    (trafficFrame_settleWait _)

/-- Whether the release engine waits follows from the hold queue, the tracker, the wait stamp, the FIFO with the
write on the port, and whether it has waited (R26). -/
theorem State.waitsFor_congr {s t : State} (h1 : t.release = s.release) (h2 : t.tracker = s.tracker)
    (h3 : t.matcher = s.matcher) (h4 : t.fifoCount = s.fifoCount) (h5 : t.spaceWait = s.spaceWait) :
    t.waitsFor = s.waitsFor := by
  have hr : t.releaseWaiting = s.releaseWaiting := by
    unfold State.releaseWaiting State.due State.noteRoom
    rw [h1, h2, h3, h4, h5]
  unfold State.waitsFor
  rw [hr, h1]

@[simp] theorem State.beginFetch_waitsFor (s : State) : s.beginFetch.waitsFor = s.waitsFor := by
  unfold State.beginFetch; split
  · rfl
  · split <;> rfl

@[simp] theorem State.postFetch_waitsFor (s : State) : s.postFetch.waitsFor = s.waitsFor := by
  unfold State.postFetch; split
  · split <;> rfl
  · rfl

/-- The part's requests are never for a chest write that the FIFO has lost (R44). -/
theorem State.partRequest_live (s : State) (e : FifoEntry) (live : Bool)
    (h : s.partRequest = some (.chestWrite e live)) : live = true := by
  unfold State.partRequest at h
  split at h
  · simp_all
  · split at h
    · simp_all
    · split at h
      · next a ha =>
        simp only [Option.some.injEq] at h
        subst h
        unfold State.anchorRequest at ha
        split at ha
        · simp at ha
        · split at ha <;> simp at ha
      · split at h
        · simp at h
        · unfold ReportWriter.request at h
          split at h <;> simp at h

/-- A grant to the part on a free port changes nothing of whether the release engine waits (R26). -/
theorem State.grantPart_waitsFor (s : State) (h : s.path.waiting = none) (hp : s.path.port = none) :
    s.grantPart.waitsFor = s.waitsFor := by
  unfold State.grantPart
  split
  · rfl
  · rfl
  · next a hne hr =>
    rw [State.countYield_idle s h]
    have h0 : s.path.removedWrite = false := by simp [MemPath.removedWrite, hp]
    cases a with
    | writeBack x y => exact absurd rfl (hne x y)
    | chestWrite e live =>
      have hl := s.partRequest_live e live hr
      subst hl
      exact State.waitsFor_congr rfl rfl rfl
        (by simp [State.fifoCount, h0]; simp [State.grant, State.place, MemPath.removedWrite]) rfl
    | _ =>
      exact State.waitsFor_congr rfl rfl rfl
        (by simp [State.fifoCount, h0]; simp [State.grant, State.place, MemPath.removedWrite]) rfl

/-- Arbitration changes nothing of whether the release engine waits (R26). -/
theorem State.arbitrate_waitsFor (s : State) (h : s.path.waiting = none) :
    s.arbitrate.waitsFor = s.waitsFor := by
  unfold State.arbitrate
  split
  · rfl
  · next hp => simp only [h]; exact s.grantPart_waitsFor h (by simpa using hp)

/-- After an event the release engine waits as its effect has it (R26). -/
theorem State.pump_spaceWait (s : State) (h : s.path.waiting = none) :
    s.pump.spaceWait = s.waitsFor := by
  show s.beginFetch.postFetch.arbitrate.waitsFor = s.waitsFor
  rw [State.arbitrate_waitsFor _ (by simpa using h)]
  simp

/-- The state after an event's effect and what follows it. -/
theorem sameButTraffic_pump (s : State) (h : s.path.waiting = none) : sameButTraffic s s.pump :=
  ⟨rfl, trafficFrame_pump s h, s.pump_spaceWait h⟩

/-! ### Processor accesses -/

/-- With no processor access in progress there is nothing to complete. -/
theorem State.flushProcessor_idle (s : State) (h : s.path.processorBusy = false) :
    s.flushProcessor = s := by
  simp [State.flushProcessor, State.driveProcessor, h]

/-- A free port has no processor access in progress. -/
theorem State.portFree.idle {s : State} (h : s.portFree) : s.path.processorBusy = false := by
  simp [MemPath.processorBusy, h.1, h.2]

/-- A dropped write (R56, R152). -/
theorem State.access_dropped (s : State) (a : ProcAccess) (n : Nat) (v : Word) (r : DropRegion)
    (h : s.path.processorBusy = false) (hd : s.droppedAccess a = some (n, v, r)) :
    s.access a = s.drop n v r := by
  simp [State.access, State.flushProcessor_idle s h, hd]

/-- An access held on READY behind an access of the part (R154). -/
theorem State.access_waits (s : State) (a : ProcAccess) (h : s.path.processorBusy = false)
    (hp : s.path.port.isSome = true) (hd : s.droppedAccess a = none) : s.access a = s.wait a := by
  simp [State.access, State.flushProcessor_idle s h, hd, hp]

/-- An access made at once on a free port (R154). -/
theorem State.access_free (s : State) (a : ProcAccess) (h : s.portFree)
    (hd : s.droppedAccess a = none) : s.access a = (s.makeAccess a).pump := by
  simp [State.access, State.flushProcessor_idle s h.idle, hd, h.1]

/-- A stored write on a free port (R150, R151): the word is stored through its polarity, then handed on. -/
theorem State.processorWrite_free (s : State) (a : Nat) (v : Word) (h : s.portFree)
    (hd : s.dropped a = none) :
    s.processorWrite a v = (s.storeAndSnoop a (throughPolarity (s.inverts a) v)).pump := by
  unfold State.processorWrite
  rw [State.access_free s _ h (by simp [State.droppedAccess, hd])]
  rfl

/-- A word of the anchor block is never dropped nor inverted (R150). -/
theorem State.anchor_plain (s : State) (a : Nat) (h : a < 78) :
    s.dropped a = none ∧ s.inverts a = false ∧ regionOf s.loader.installed a = .anchor := by
  have hr : ∀ i, regionOf i a = .anchor := fun i => by simp [regionOf, Config.anchorWords, h]
  refine ⟨by simp [State.dropped, hr], ?_, hr _⟩
  unfold State.inverts
  split <;> simp [hr]

/-- A write of an anchor word on a free port (R150, R151). -/
theorem State.anchorWrite_free (s : State) (a : Nat) (v : Word) (h : s.portFree) (ha : a < 78) :
    s.processorWrite a v = ((s.store a v).anchorSnoop a v).pump := by
  obtain ⟨hd, hi, hr⟩ := s.anchor_plain a ha
  rw [State.processorWrite_free s a v h hd, hi]
  simp [State.storeAndSnoop, State.snoop, hr, throughPolarity]

end Sys2Proof.Machine
end

