-- ==== Sys2Proof/Laws/LinkFrame.lean ====
section
/-! SUPPORT. What the shared operations leave alone: none of these writes the sense link controller. (A pickup's
event and an installation do.) -/

set_option linter.unusedTactic false
set_option linter.unnecessarySeqFocus false
set_option linter.unreachableTactic false

namespace Sys2Proof.Machine

@[simp] theorem State.raise_link (b : Block) (r : Report) (s : State) : (s.raise b r).link = s.link := by
  unfold State.raise; (try dsimp only); (repeat' split) <;> (try simp)
@[simp] theorem State.raiseAll_link (b : Block) (l : List Report) (s : State) : (State.raiseAll b l s).link = s.link := by
  induction l generalizing s with
  | nil => rfl
  | cons x t ih => simp only [State.raiseAll]; (repeat' split) <;> simp [ih]
@[simp] theorem State.commandReport_link (v : Word) (x : CommandResult) (y : Option CommandReason) (t : TrackerState) (m n : Nat) (s : State) : (s.commandReport v x y t m n).link = s.link := by
  unfold State.commandReport; (try dsimp only); (repeat' split) <;> (try simp)
@[simp] theorem State.bringCounts_link (s : State) : (s.bringCounts).link = s.link := by
  unfold State.bringCounts; (try dsimp only); (repeat' split) <;> (try simp)
@[simp] theorem State.demandRefresh_link (s : State) : s.demandRefresh.link = s.link := by
  unfold State.demandRefresh; (try dsimp only); (repeat' split) <;> (try simp)
@[simp] theorem State.setConfig_link (c : ConfigState) (s : State) : (s.setConfig c).link = s.link := by
  unfold State.setConfig; (try dsimp only); (repeat' split) <;> (try simp)
@[simp] theorem State.freeSlots_link (l : List Nat) (s : State) : (State.freeSlots l s).link = s.link := by
  induction l generalizing s with
  | nil => rfl
  | cons x t ih => simp only [State.freeSlots]; (repeat' split) <;> simp [ih]
@[simp] theorem State.noteEmptied_link (c : StarvedCause) (n : Option Nat) (s : State) : (s.noteEmptied c n).link = s.link := by
  unfold State.noteEmptied; (try dsimp only); (repeat' split) <;> (try simp)
@[simp] theorem State.maskChange_link (d : Division) (v : Word) (s : State) : (s.maskChange d v).link = s.link := by
  unfold State.maskChange; (try dsimp only); (repeat' split) <;> (try simp)
@[simp] theorem State.loadStart_link (s : State) : s.loadStart.link = s.link := by
  unfold State.loadStart; (try dsimp only); (repeat' split) <;> (try simp)
@[simp] theorem State.announce_link (n : TrackerState) (c : StateCause) (s : State) : (s.announce n c).link = s.link := by
  unfold State.announce; (try dsimp only); (repeat' split) <;> (try simp)
@[simp] theorem State.teardown_link (s : State) : s.teardown.link = s.link := by
  unfold State.teardown; (try dsimp only); (repeat' split) <;> (try simp)
@[simp] theorem State.beginRun_link (b : Bool) (s : State) : (s.beginRun b).link = s.link := by
  unfold State.beginRun; (try dsimp only); (repeat' split) <;> (try simp)
@[simp] theorem State.changeState_link (n : TrackerState) (c : StateCause) (s : State) : (s.changeState n c).link = s.link := by
  unfold State.changeState; (try dsimp only); (repeat' split) <;> (try simp)
@[simp] theorem State.changeAll_link (l : List (TrackerState × StateCause)) (s : State) : (State.changeAll l s).link = s.link := by
  induction l generalizing s with
  | nil => rfl
  | cons x t ih => simp only [State.changeAll]; (repeat' split) <;> simp [ih]
@[simp] theorem State.applyTracker_link (r : TrackerResult) (s : State) : (s.applyTracker r).link = s.link := by
  unfold State.applyTracker; (try dsimp only); (repeat' split) <;> (try simp)
@[simp] theorem State.deliver_link (m : Option Message) (s : State) : (s.deliver m).link = s.link := by
  unfold State.deliver; dsimp only; split_ifs <;> simp
@[simp] theorem State.applyMatcher_link (r : MatcherResult) (s : State) : (s.applyMatcher r).link = s.link := by
  unfold State.applyMatcher; (try dsimp only); (repeat' split) <;> (try simp)
@[simp] theorem State.takeFused_link (o : Option FusedOnset) (s : State) : (s.takeFused o).link = s.link := by
  unfold State.takeFused; (try dsimp only); (repeat' split) <;> (try simp)
@[simp] theorem State.recomputeLag_link (s : State) : s.recomputeLag.link = s.link := by
  unfold State.recomputeLag; (try dsimp only); (repeat' split) <;> (try simp)
@[simp] theorem State.takeOnset_link (o : Option Onset) (s : State) : (s.takeOnset o).link = s.link := by
  unfold State.takeOnset; (try dsimp only); (repeat' split) <;> (try simp)
@[simp] theorem State.grant_link (a : PortAccess) (s : State) : (s.grant a).link = s.link := by
  unfold State.grant; (try dsimp only); (repeat' split) <;> (try simp)
@[simp] theorem State.countYield_link (s : State) : s.countYield.link = s.link := by
  unfold State.countYield; (try dsimp only); (repeat' split) <;> (try simp)
@[simp] theorem State.grantPart_link (s : State) : s.grantPart.link = s.link := by
  unfold State.grantPart; (try dsimp only); (repeat' split) <;> (try simp)
@[simp] theorem State.drop_link (a : Nat) (v : Word) (r : DropRegion) (s : State) : (s.drop a v r).link = s.link := by
  unfold State.drop; (try dsimp only); (repeat' split) <;> (try simp)
@[simp] theorem State.grantProcessor_link (a : ProcAccess) (s : State) : (s.grantProcessor a).link = s.link := by
  unfold State.grantProcessor; (try dsimp only); (repeat' split) <;> (try simp)
@[simp] theorem State.arbitrate_link (s : State) : s.arbitrate.link = s.link := by
  unfold State.arbitrate; (try dsimp only); (repeat' split) <;> (try simp)
@[simp] theorem State.beginFetch_link (s : State) : s.beginFetch.link = s.link := by
  unfold State.beginFetch; (try dsimp only); (repeat' split) <;> (try simp)
@[simp] theorem State.postFetch_link (s : State) : s.postFetch.link = s.link := by
  unfold State.postFetch; (try dsimp only); (repeat' split) <;> (try simp)
@[simp] theorem State.pump_link (s : State) : s.pump.link = s.link := by
  unfold State.pump; (try dsimp only); (repeat' split) <;> (try simp)
@[simp] theorem State.listSlot_link (n : Nat) (v : Word) (s : State) : (s.listSlot n v).link = s.link := by
  unfold State.listSlot; (try dsimp only); (repeat' split) <;> (try simp)
@[simp] theorem State.withdrawNote_link (n : Nat) (s : State) : (s.withdrawNote n).link = s.link := by
  unfold State.withdrawNote; (try dsimp only); (repeat' split) <;> (try simp)
@[simp] theorem State.withdrawCue_link (n : Nat) (s : State) : (s.withdrawCue n).link = s.link := by
  unfold State.withdrawCue; (try dsimp only); (repeat' split) <;> (try simp)
@[simp] theorem State.editSlot_link (n : Nat) (s : State) : (s.editSlot n).link = s.link := by
  unfold State.editSlot; (try dsimp only); (repeat' split) <;> (try simp)
@[simp] theorem State.emptySlot_link (n : Nat) (s : State) : (s.emptySlot n).link = s.link := by
  unfold State.emptySlot; (try dsimp only); (repeat' split) <;> (try simp)
@[simp] theorem State.commitSlot_link (n : Nat) (v : Word) (s : State) : (s.commitSlot n v).link = s.link := by
  unfold State.commitSlot; (try dsimp only); (repeat' split) <;> (try simp)
@[simp] theorem State.scoreWrite_link (n k : Nat) (v : Word) (s : State) : (s.scoreWrite n k v).link = s.link := by
  unfold State.scoreWrite; (try dsimp only); (repeat' split) <;> (try simp)
@[simp] theorem State.admitted_link (n : Nat) (v : SlotState) (s : State) : (s.admitted n v).link = s.link := by
  unfold State.admitted; (try dsimp only); (repeat' split) <;> (try simp)
@[simp] theorem State.offerHold_link (e : HoldEntry) (s : State) : (s.offerHold e).link = s.link := by
  unfold State.offerHold; (try dsimp only); (repeat' split) <;> (try simp)
@[simp] theorem State.offerCue_link (e : CueEntry) (s : State) : (s.offerCue e).link = s.link := by
  unfold State.offerCue; (try dsimp only); (repeat' split) <;> (try simp)
@[simp] theorem State.placeRecord_link (n : Nat) (r : FetchedRecord) (s : State) : (s.placeRecord n r).link = s.link := by
  unfold State.placeRecord; (try dsimp only); (repeat' split) <;> (try simp)
@[simp] theorem State.judgeRecord_link (i : Installed) (n : Nat) (r : FetchedRecord) (s : State) : (s.judgeRecord i n r).link = s.link := by
  unfold State.judgeRecord; (try dsimp only); (repeat' split) <;> (try simp)
@[simp] theorem State.fetchWord_link (v : Word) (s : State) : (s.fetchWord v).link = s.link := by
  unfold State.fetchWord; (try dsimp only); (repeat' split) <;> (try simp)
@[simp] theorem State.anchorCommit_link (s : State) : s.anchorCommit.link = s.link := by
  unfold State.anchorCommit; (try dsimp only); (repeat' split) <;> (try simp)
@[simp] theorem State.takeHeldMasks_link (held : Vector (Option Word) 4) (l : List Division) (s : State) : (State.takeHeldMasks held l s).link = s.link := by
  induction l generalizing s with
  | nil => rfl
  | cons x t ih => simp only [State.takeHeldMasks]; (repeat' split) <;> simp [ih]
@[simp] theorem State.enterConfigured_link (s : State) : s.enterConfigured.link = s.link := by
  unfold State.enterConfigured; (try dsimp only); (repeat' split) <;> (try simp)
@[simp] theorem State.sweepIfStopping_link (s : State) : s.sweepIfStopping.link = s.link := by
  unfold State.sweepIfStopping; (try dsimp only); (repeat' split) <;> (try simp)
@[simp] theorem State.rejectAnchor_link (r : AnchorReason) (s : State) : (s.rejectAnchor r).link = s.link := by
  unfold State.rejectAnchor; (try dsimp only); (repeat' split) <;> (try simp)
@[simp] theorem State.stopMaskWrite_link (d : Division) (v : Word) (s : State) : (s.stopMaskWrite d v).link = s.link := by
  unfold State.stopMaskWrite; (try dsimp only); (repeat' split) <;> (try simp)
@[simp] theorem State.pickupHeldWrite_link (k : PickupNo) (s : State) : (s.pickupHeldWrite k).link = s.link := by
  unfold State.pickupHeldWrite; (try dsimp only); (repeat' split) <;> (try simp)
@[simp] theorem State.pickupCommitWrite_link (k : PickupNo) (v : Word) (s : State) : (s.pickupCommitWrite k v).link = s.link := by
  unfold State.pickupCommitWrite; (try dsimp only); (repeat' split) <;> (try simp)
@[simp] theorem State.askClear_link (s : State) : s.askClear.link = s.link := by
  unfold State.askClear; (try dsimp only); (repeat' split) <;> (try simp)
@[simp] theorem State.leaveWinding_link (s : State) : s.leaveWinding.link = s.link := by
  unfold State.leaveWinding; (try dsimp only); (repeat' split) <;> (try simp)
@[simp] theorem State.takeClearAnswer_link (s : State) : s.takeClearAnswer.link = s.link := by
  unfold State.takeClearAnswer; (try dsimp only); (repeat' split) <;> (try simp)
@[simp] theorem State.reportReady_link (s : State) : s.reportReady.link = s.link := by
  unfold State.reportReady; (try dsimp only); (repeat' split) <;> (try simp)
@[simp] theorem State.runAfterLimit_link (s : State) : s.runAfterLimit.link = s.link := rfl
@[simp] theorem State.runAfterSettle_link (s : State) : s.runAfterSettle.link = s.link := by
  unfold State.runAfterSettle; (try dsimp only); (repeat' split) <;> (try simp)
@[simp] theorem State.runAfterDrop_link (s : State) : s.runAfterDrop.link = s.link := by
  unfold State.runAfterDrop; (try dsimp only); (repeat' split) <;> (try simp)
@[simp] theorem State.runAfterCancel_link (s : State) : s.runAfterCancel.link = s.link := by
  unfold State.runAfterCancel; (try dsimp only); (repeat' split) <;> (try simp)
@[simp] theorem State.runFrame_link (c w : Bool) (s : State) : (s.runFrame c w).link = s.link := by
  unfold State.runFrame; (try dsimp only); (repeat' split) <;> (try simp)
@[simp] theorem State.cancelEffect_link (s : State) : s.cancelEffect.link = s.link := by
  unfold State.cancelEffect; (try dsimp only); (repeat' split) <;> (try simp)
@[simp] theorem State.runCancelAssert_link (s : State) : s.runCancelAssert.link = s.link := by
  unfold State.runCancelAssert; (try dsimp only); (repeat' split) <;> (try simp)
@[simp] theorem State.runCancelRelease_link (s : State) : s.runCancelRelease.link = s.link := by
  unfold State.runCancelRelease; (try dsimp only); (repeat' split) <;> (try simp)
@[simp] theorem State.haltByDrop_link (s : State) : s.haltByDrop.link = s.link := by
  unfold State.haltByDrop; (try dsimp only); (repeat' split) <;> (try simp)
@[simp] theorem State.runDrop_link (s : State) : s.runDrop.link = s.link := by
  unfold State.runDrop; (try dsimp only); (repeat' split) <;> (try simp)
@[simp] theorem State.runConfirm_link (s : State) : s.runConfirm.link = s.link := by
  unfold State.runConfirm; (try dsimp only); (repeat' split) <;> (try simp)
@[simp] theorem State.runLimit_link (s : State) : s.runLimit.link = s.link := by
  unfold State.runLimit; (try dsimp only); (repeat' split) <;> (try simp)
@[simp] theorem State.runHold_link (s : State) : s.runHold.link = s.link := by
  unfold State.runHold; (try dsimp only); (repeat' split) <;> (try simp)
@[simp] theorem State.runStage_link (s : State) : s.runStage.link = s.link := by
  unfold State.runStage; (try dsimp only); (repeat' split) <;> (try simp)
@[simp] theorem State.finishRun_link (s : State) : s.finishRun.link = s.link := by
  unfold State.finishRun; (try dsimp only); (repeat' split) <;> (try simp)
@[simp] theorem State.dropBelow_link (n : Nat) (s : State) : (s.dropBelow n).link = s.link := by
  unfold State.dropBelow; (try dsimp only); (repeat' split) <;> (try simp)
@[simp] theorem State.acceptStart_link (s : State) : s.acceptStart.link = s.link := by
  unfold State.acceptStart; (try dsimp only); (repeat' split) <;> (try simp)
@[simp] theorem State.takeStart_link (i : Installed) (s : State) : (s.takeStart i).link = s.link := by
  unfold State.takeStart; (try dsimp only); (repeat' split) <;> (try simp)
@[simp] theorem State.takeStop_link (s : State) : s.takeStop.link = s.link := by
  unfold State.takeStop; (try dsimp only); (repeat' split) <;> (try simp)
@[simp] theorem State.takeResume_link (s : State) : s.takeResume.link = s.link := by
  unfold State.takeResume; (try dsimp only); (repeat' split) <;> (try simp)
@[simp] theorem State.command_link (v : Word) (s : State) : (s.command v).link = s.link := by
  unfold State.command; (try dsimp only); (repeat' split) <;> (try simp)
@[simp] theorem State.consumerWrite_link (v : Word) (s : State) : (s.consumerWrite v).link = s.link := by
  unfold State.consumerWrite; (try dsimp only); (repeat' split) <;> (try simp)
@[simp] theorem State.runBlockCopy_link (x : RunWord) (v : Word) (s : State) : (s.runBlockCopy x v).link = s.link := rfl
@[simp] theorem State.anchorSnoop_link (n : Nat) (v : Word) (s : State) : (s.anchorSnoop n v).link = s.link := by
  unfold State.anchorSnoop; (try dsimp only); (repeat' split) <;> (try simp)
@[simp] theorem State.snoop_link (a : Nat) (v : Word) (s : State) : (s.snoop a v).link = s.link := by
  unfold State.snoop; (try dsimp only); (repeat' split) <;> (try simp)
@[simp] theorem State.finishChestWrite_link (b : Bool) (s : State) : (s.finishChestWrite b).link = s.link := by
  unfold State.finishChestWrite; (try dsimp only); (repeat' split) <;> (try simp)
@[simp] theorem State.finishReportWrite_link (s : State) : s.finishReportWrite.link = s.link := by
  unfold State.finishReportWrite; (try dsimp only); (repeat' split) <;> (try simp)
@[simp] theorem State.grantWriteBack_link (s : State) : s.grantWriteBack.link = s.link := by
  unfold State.grantWriteBack; (try dsimp only); (repeat' split) <;> (try simp)
@[simp] theorem State.markDue_link (s : State) : s.markDue.link = s.link := by
  unfold State.markDue; (try dsimp only); (repeat' split) <;> (try simp)
@[simp] theorem State.closeWindow_link (s : State) : s.closeWindow.link = s.link := by
  unfold State.closeWindow; (try dsimp only); (repeat' split) <;> (try simp)
@[simp] theorem State.expireWait_link (s : State) : s.expireWait.link = s.link := by
  unfold State.expireWait; (try dsimp only); (repeat' split) <;> (try simp)
@[simp] theorem State.finishFrame_link (s : State) : s.finishFrame.link = s.link := by
  unfold State.finishFrame; (try dsimp only); (repeat' split) <;> (try simp)
@[simp] theorem State.frameRefresh_link (s : State) : s.frameRefresh.link = s.link := by
  unfold State.frameRefresh; (try dsimp only); (repeat' split) <;> (try simp)
@[simp] theorem State.trackerFrame_link (s : State) : s.trackerFrame.link = s.link := by
  unfold State.trackerFrame; (try dsimp only); (repeat' split) <;> (try simp)
@[simp] theorem State.expireCues_link (x y n : Nat) (s : State) : (State.expireCues x y n s).link = s.link := by
  induction n generalizing s with
  | zero => rfl
  | succ n ih => simp only [State.expireCues]; (repeat' split) <;> simp [ih]
@[simp] theorem State.matcherFrame_link (s : State) : s.matcherFrame.link = s.link := by
  unfold State.matcherFrame; (try dsimp only); (repeat' split) <;> (try simp)
@[simp] theorem State.frameBlocks_link (c w : Bool) (o : FrameOrder) (s : State) : (s.frameBlocks c w o).link = s.link := by
  unfold State.frameBlocks; (try dsimp only); (repeat' split) <;> (try simp)
@[simp] theorem State.releaseReport_link (i : Installed) (e : HoldEntry) (s : State) : (s.releaseReport i e).link = s.link := by
  unfold State.releaseReport; (try dsimp only); (repeat' split) <;> (try simp)
@[simp] theorem State.noteAction_link (i : Installed) (e : HoldEntry) (b : Bool) (s : State) : (s.noteAction i e b).link = s.link := by
  unfold State.noteAction; (try dsimp only); (repeat' split) <;> (try simp)
@[simp] theorem State.registration_link (e : HoldEntry) (s : State) : (s.registration e).link = s.link := by
  unfold State.registration; (try dsimp only); (repeat' split) <;> (try simp)
@[simp] theorem State.dispatch_link (i : Installed) (e : HoldEntry) (s : State) : (s.dispatch i e).link = s.link := by
  unfold State.dispatch; (try dsimp only); (repeat' split) <;> (try simp)
@[simp] theorem State.loaderTakesSweepEnd_link (s : State) : s.loaderTakesSweepEnd.link = s.link := by
  unfold State.loaderTakesSweepEnd; (try dsimp only); (repeat' split) <;> (try simp)
@[simp] theorem State.trackerTakesSweepEnd_link (s : State) : s.trackerTakesSweepEnd.link = s.link := by
  unfold State.trackerTakesSweepEnd; (try dsimp only); (repeat' split) <;> (try simp)
@[simp] theorem State.takeSweepEnd_link (w : Sweep) (s : State) : (s.takeSweepEnd w).link = s.link := by
  unfold State.takeSweepEnd; (try dsimp only); (repeat' split) <;> (try simp)
@[simp] theorem State.endOff_link (s : State) : (s.endOff).link = s.link := by
  unfold State.endOff; (try dsimp only); (repeat' split) <;> (try simp)
@[simp] theorem State.beginRefresh_link (i : Installed) (s : State) : (s.beginRefresh i).link = s.link := rfl

end Sys2Proof.Machine
end

