-- ==== Sys2Proof/Laws/PerInstr.lean ====
section
/-! SUPPORT. Facts about every command, as syntax: the word a command addresses lies in the organ memory. -/

namespace Sys2Proof

open Sys2Proof.Machine

/-- The address of a processor access. -/
def Laws.accessAddress : ProcAccess → Nat
  | .read n => n
  | .write n _ => n

/-- A command that is a processor access addresses one of the 262 144 words of the organ memory (R150); a
well-formed one whose row names a region outside the anchor block addresses no anchor word. -/
def Laws.Addressed.Statement (i : Instr) : Prop :=
  (∀ a, accessOf i = some a → Laws.accessAddress a < Config.memoryWords)
    ∧ ∀ a v, i.wellFormed = true →
      (i = .scoreCommit a v ∨ i = .emptyCommit a v ∨ i = .scoreEdit a v ∨ i = .chestWrite a v
        ∨ i = .chestRead a ∨ i = .logStatusWrite a v) → Config.anchorWords ≤ a.toNat

namespace Laws.Addressed

theorem reset : Laws.Addressed.Statement .reset := by
  exact ⟨fun x h => by simp [accessOf] at h, fun x y h k => by simp at k⟩
theorem scoreCommit (a : Addr) (b : Word) : Laws.Addressed.Statement (.scoreCommit a b) := by
  refine ⟨fun x h => ?_, fun x y h k => ?_⟩
  · cases h; exact a.isLt
  · simp_all [Instr.wellFormed, Addr.outsideAnchor]
theorem emptyCommit (a : Addr) (b : Word) : Laws.Addressed.Statement (.emptyCommit a b) := by
  refine ⟨fun x h => ?_, fun x y h k => ?_⟩
  · cases h; exact a.isLt
  · simp_all [Instr.wellFormed, Addr.outsideAnchor]
theorem scoreEdit (a : Addr) (b : Word) : Laws.Addressed.Statement (.scoreEdit a b) := by
  refine ⟨fun x h => ?_, fun x y h k => ?_⟩
  · cases h; exact a.isLt
  · simp_all [Instr.wellFormed, Addr.outsideAnchor]
theorem fetchReadDone : Laws.Addressed.Statement .fetchReadDone := by
  exact ⟨fun x h => by simp [accessOf] at h, fun x y h k => by simp at k⟩
theorem chestWrite (a : Addr) (b : Word) : Laws.Addressed.Statement (.chestWrite a b) := by
  refine ⟨fun x h => ?_, fun x y h k => ?_⟩
  · cases h; exact a.isLt
  · simp_all [Instr.wellFormed, Addr.outsideAnchor]
theorem chestRead (a : Addr) : Laws.Addressed.Statement (.chestRead a) := by
  refine ⟨fun x h => ?_, fun x y h k => ?_⟩
  · cases h; exact a.isLt
  · simp_all [Instr.wellFormed, Addr.outsideAnchor]
theorem logStatusWrite (a : Addr) (b : Word) : Laws.Addressed.Statement (.logStatusWrite a b) := by
  refine ⟨fun x h => ?_, fun x y h k => ?_⟩
  · cases h; exact a.isLt
  · simp_all [Instr.wellFormed, Addr.outsideAnchor]
theorem stopMaskWrite (a : Division) (b : Word) : Laws.Addressed.Statement (.stopMaskWrite a b) := by
  refine ⟨fun x h => ?_, fun x y h k => by simp at k⟩
  have := a.isLt
  cases h; simp only [Laws.accessAddress, Config.memoryWords]; omega
theorem pickupCommit (a : PickupNo) (b : Word) : Laws.Addressed.Statement (.pickupCommit a b) := by
  refine ⟨fun x h => ?_, fun x y h k => by simp at k⟩
  have := a.isLt
  cases h; simp only [Laws.accessAddress, Config.memoryWords]; omega
theorem pickupReadDone : Laws.Addressed.Statement .pickupReadDone := by
  exact ⟨fun x h => by simp [accessOf] at h, fun x y h k => by simp at k⟩
theorem runBlockWrite (a : RunWord) (b : Word) : Laws.Addressed.Statement (.runBlockWrite a b) := by
  refine ⟨fun x h => ?_, fun x y h k => by simp at k⟩
  cases a <;> cases h <;> simp [Laws.accessAddress, Config.memoryWords]
theorem commandNone : Laws.Addressed.Statement .commandNone := by
  refine ⟨fun x h => ?_, fun x y h k => by simp at k⟩
  cases h; simp [Laws.accessAddress, Config.memoryWords]
theorem start : Laws.Addressed.Statement .start := by
  refine ⟨fun x h => ?_, fun x y h k => by simp at k⟩
  cases h; simp [Laws.accessAddress, Config.memoryWords]
theorem stop : Laws.Addressed.Statement .stop := by
  refine ⟨fun x h => ?_, fun x y h k => by simp at k⟩
  cases h; simp [Laws.accessAddress, Config.memoryWords]
theorem resume : Laws.Addressed.Statement .resume := by
  refine ⟨fun x h => ?_, fun x y h k => by simp at k⟩
  cases h; simp [Laws.accessAddress, Config.memoryWords]
theorem commandUnknown (a : Word) : Laws.Addressed.Statement (.commandUnknown a) := by
  refine ⟨fun x h => ?_, fun x y h k => by simp at k⟩
  cases h; simp [Laws.accessAddress, Config.memoryWords]
theorem consumerIndexWrite (a : Word) : Laws.Addressed.Statement (.consumerIndexWrite a) := by
  refine ⟨fun x h => ?_, fun x y h k => by simp at k⟩
  cases h; simp [Laws.accessAddress, Config.memoryWords]
theorem anchorCommit (a : Word) : Laws.Addressed.Statement (.anchorCommit a) := by
  refine ⟨fun x h => ?_, fun x y h k => by simp at k⟩
  cases h; simp [Laws.accessAddress, Config.memoryWords]
theorem otherWrite (a : Addr) (b : Word) : Laws.Addressed.Statement (.otherWrite a b) := by
  refine ⟨fun x h => ?_, fun x y h k => ?_⟩
  · cases h; exact a.isLt
  · simp_all [Instr.wellFormed, Addr.outsideAnchor]
theorem anchorReadDone : Laws.Addressed.Statement .anchorReadDone := by
  exact ⟨fun x h => by simp [accessOf] at h, fun x y h k => by simp at k⟩
theorem portAccessDone : Laws.Addressed.Statement .portAccessDone := by
  exact ⟨fun x h => by simp [accessOf] at h, fun x y h k => by simp at k⟩
theorem chestWriteDone : Laws.Addressed.Statement .chestWriteDone := by
  exact ⟨fun x h => by simp [accessOf] at h, fun x y h k => by simp at k⟩
theorem writeBackGrant : Laws.Addressed.Statement .writeBackGrant := by
  exact ⟨fun x h => by simp [accessOf] at h, fun x y h k => by simp at k⟩
theorem reportWordDone : Laws.Addressed.Statement .reportWordDone := by
  exact ⟨fun x h => by simp [accessOf] at h, fun x y h k => by simp at k⟩
theorem frameStart (a b : Bool) (c : FrameOrder) : Laws.Addressed.Statement (.frameStart a b c) := by
  exact ⟨fun x h => by simp [accessOf] at h, fun x y h k => by simp at k⟩
theorem repeatGapDue : Laws.Addressed.Statement .repeatGapDue := by
  exact ⟨fun x h => by simp [accessOf] at h, fun x y h k => by simp at k⟩
theorem pendingOnWrite : Laws.Addressed.Statement .pendingOnWrite := by
  exact ⟨fun x h => by simp [accessOf] at h, fun x y h k => by simp at k⟩
theorem waitExpiry : Laws.Addressed.Statement .waitExpiry := by
  exact ⟨fun x h => by simp [accessOf] at h, fun x y h k => by simp at k⟩
theorem windowClose : Laws.Addressed.Statement .windowClose := by
  exact ⟨fun x h => by simp [accessOf] at h, fun x y h k => by simp at k⟩
theorem cancelAssert : Laws.Addressed.Statement .cancelAssert := by
  exact ⟨fun x h => by simp [accessOf] at h, fun x y h k => by simp at k⟩
theorem cancelRelease : Laws.Addressed.Statement .cancelRelease := by
  exact ⟨fun x h => by simp [accessOf] at h, fun x y h k => by simp at k⟩
theorem windConfirmed : Laws.Addressed.Statement .windConfirmed := by
  exact ⟨fun x h => by simp [accessOf] at h, fun x y h k => by simp at k⟩
theorem staleWaitClearAnswer : Laws.Addressed.Statement .staleWaitClearAnswer := by
  exact ⟨fun x h => by simp [accessOf] at h, fun x y h k => by simp at k⟩
theorem windLimit : Laws.Addressed.Statement .windLimit := by
  exact ⟨fun x h => by simp [accessOf] at h, fun x y h k => by simp at k⟩
theorem windDrop : Laws.Addressed.Statement .windDrop := by
  exact ⟨fun x h => by simp [accessOf] at h, fun x y h k => by simp at k⟩
theorem holdExpiry : Laws.Addressed.Statement .holdExpiry := by
  exact ⟨fun x h => by simp [accessOf] at h, fun x y h k => by simp at k⟩
theorem slotEvent (a : PickupNo) (b : BitVec 8) : Laws.Addressed.Statement (.slotEvent a b) := by
  exact ⟨fun x h => by simp [accessOf] at h, fun x y h k => by simp at k⟩
theorem timeout (a : PickupNo) : Laws.Addressed.Statement (.timeout a) := by
  exact ⟨fun x h => by simp [accessOf] at h, fun x y h k => by simp at k⟩
theorem release : Laws.Addressed.Statement .release := by
  exact ⟨fun x h => by simp [accessOf] at h, fun x y h k => by simp at k⟩
theorem sweepWrite : Laws.Addressed.Statement .sweepWrite := by
  exact ⟨fun x h => by simp [accessOf] at h, fun x y h k => by simp at k⟩
theorem sweepEnd : Laws.Addressed.Statement .sweepEnd := by
  exact ⟨fun x h => by simp [accessOf] at h, fun x y h k => by simp at k⟩
theorem reportTaken (a : Block) : Laws.Addressed.Statement (.reportTaken a) := by
  exact ⟨fun x h => by simp [accessOf] at h, fun x y h k => by simp at k⟩
theorem recordWriteBegin : Laws.Addressed.Statement .recordWriteBegin := by
  exact ⟨fun x h => by simp [accessOf] at h, fun x y h k => by simp at k⟩
theorem refreshBegin : Laws.Addressed.Statement .refreshBegin := by
  exact ⟨fun x h => by simp [accessOf] at h, fun x y h k => by simp at k⟩

end Laws.Addressed

end Sys2Proof
end

