-- ==== Sys2Proof/Laws/Shared.lean ====
section
/-! SUPPORT. The shared operations of the commands, each said once in the form a statement about a command
uses. -/

namespace Sys2Proof.Machine

/-! ### Reports -/

/-- A report raised under an installed configuration (R165). -/
theorem State.raise_installed {s : State} {i : Installed} (b : Block) (r : Report)
    (h : s.loader.installed = some i) :
    s.raise b r = { s with raised := s.raised ++ [s.reported b r] } := by
  simp [State.raise, h, State.reported]

/-- No block raises a report while no log is installed (R165). -/
theorem State.raise_uninstalled {s : State} (b : Block) (r : Report) (h : s.loader.installed = none) :
    s.raise b r = s := by
  simp [State.raise, h]

/-- Reports raised one after another by one block (R165). -/
theorem State.raiseAll_installed (b : Block) (l : List Report) {s : State} {i : Installed}
    (h : s.loader.installed = some i) :
    State.raiseAll b l s = { s with raised := s.raised ++ l.map (s.reported b) } := by
  induction l generalizing s with
  | nil => simp [State.raiseAll]
  | cons r l ih =>
    rw [State.raiseAll, State.raise_installed b r h, ih (by exact h)]
    simp [State.reported]

/-- No numbers of an accepted START are on their way (R138). -/
theorem State.bringCounts_none {s : State} (h : s.run.startCounts = none) : s.bringCounts = s := by
  simp [State.bringCounts, h]

/-- The numbers of an accepted START come, and its COMMAND report is raised (R138; log entry 30). -/
theorem State.bringCounts_some {s : State} {i : Installed} {hold cues : Nat}
    (h : s.run.startCounts = some (hold, cues)) (hi : s.loader.installed = some i) :
    s.bringCounts =
      { s with
        run := { s.run with startCounts := none },
        raised := s.raised ++ [s.reported .run (.command (.written 1) .accepted none .idle hold cues)] } := by
  unfold State.bringCounts
  simp only [h, State.commandReport]
  rw [State.raise_installed (i := i) _ _ (by exact hi)]
  rfl

/-- The hold queue after a release: the starved flag, and STARVED once (R32). -/
theorem State.noteEmptied_running {s : State} {i : Installed} (c : StarvedCause) (n : Option Nat)
    (h : s.tracker.state.running = true) (hi : s.loader.installed = some i) :
    s.noteEmptied c n =
      { s with
        release := { s.release with starved := s.release.starved || s.release.hold.isEmpty },
        raised := s.raised ++
          (if s.release.hold = [] ∧ s.release.starved = false then
            [s.reported .release (.starved c n)] else []) } := by
  unfold State.noteEmptied
  cases h1 : s.release.hold <;> cases h2 : s.release.starved <;> simp [h, h1, h2]
  · rw [State.raise_installed (i := i) _ _ (by exact hi)]; simp [h1]; rfl
  all_goals simp [← h1, ← h2]

/-! ### The cue list and the fusion window -/

/-- The first cue that passes a test, with the cues ahead of it (R107, R109). -/
theorem cueSplit_found {q : CueEntry → Bool} {ahead behind : List CueEntry} {e : CueEntry}
    (h : ∀ x ∈ ahead, q x = false) (he : q e = true) :
    cueSplit q (ahead ++ e :: behind) = some (ahead, e) := by
  induction ahead with
  | nil => simp [cueSplit, he]
  | cons a l ih => simp [cueSplit, h a (by simp), ih (fun x hx => h x (by simp [hx]))]

/-- No cue passes the test (R106). -/
theorem cueSplit_none {q : CueEntry → Bool} {l : List CueEntry} (h : ∀ x ∈ l, q x = false) :
    cueSplit q l = none := by
  induction l with
  | nil => rfl
  | cons a l ih => simp [cueSplit, h a (by simp), ih (fun x hx => h x (by simp [hx]))]

theorem foldl_leadOf_keeps {c : Contributor} {l : List Contributor}
    (h : ∀ d ∈ l, d.contribution ≤ c.contribution) : l.foldl leadOf c = c := by
  induction l with
  | nil => rfl
  | cons d l ih =>
    have hd := h d (by simp)
    rw [List.foldl_cons, show leadOf c d = c by unfold leadOf; rw [if_neg (by omega)]]
    exact ih (fun x hx => h x (by simp [hx]))

theorem foldl_leadOf_below {n : Nat} {l : List Contributor} (h : ∀ d ∈ l, d.contribution < n)
    (x : Contributor) (hx : x.contribution < n) : (l.foldl leadOf x).contribution < n := by
  induction l generalizing x with
  | nil => exact hx
  | cons d l ih =>
    apply ih (fun y hy => h y (by simp [hy]))
    unfold leadOf
    split
    · exact h d (by simp)
    · exact hx

/-- The leading contributor is the first of the largest contribution (R92). -/
theorem leading_first {before behind : List Contributor} {c : Contributor}
    (h1 : ∀ d ∈ before, d.contribution < c.contribution)
    (h2 : ∀ d ∈ behind, d.contribution ≤ c.contribution) :
    leading (before ++ c :: behind) = some c := by
  cases before with
  | nil => simp [leading, foldl_leadOf_keeps h2]
  | cons d l =>
    have := foldl_leadOf_below (l := l) (fun y hy => h1 y (by simp [hy])) d (h1 d (by simp))
    simp only [leading, List.cons_append, List.foldl_append, List.foldl_cons]
    have e : leadOf (l.foldl leadOf d) c = c := if_pos this
    rw [e, foldl_leadOf_keeps h2]

/-! ### The slot map and the sweeps -/

/-- Slots set FREE one after another (R16). -/
theorem State.freeSlots_fold (l : List Nat) (s : State) :
    s.freeSlots l =
      { s with
        admission := { s.admission with
          slots := l.foldl (fun m n => Table.set .free m n .free) s.admission.slots } } := by
  induction l generalizing s with
  | nil => rfl
  | cons a l ih => simp [State.freeSlots, ih, State.setSlot]

/-- A REVOICE request leaves the port alone (R47, R51). -/
theorem State.requestSweep_revoice (s : State) (set : Divisions) :
    s.requestSweep .revoice set = { s with chest := s.chest.requestSweep .revoice set } := by
  simp [State.requestSweep, Chest.silences]

/-- The first division in order that a test admits: the lowest (R48). -/
theorem divisionOrder_find {p : Division → Bool} {d : Division} (h : p d = true)
    (hl : ∀ e, e < d → p e = false) : divisionOrder.find? p = some d := by
  have h0 := hl 0; have h1 := hl 1; have h2 := hl 2
  fin_cases d <;> simp_all [divisionOrder, List.find?]

/-- No division that a test admits (R48). -/
theorem divisionOrder_find_none {p : Division → Bool} (h : ∀ d, p d = false) :
    divisionOrder.find? p = none := by
  simp [h]

/-- The test that a REVOICE of a set covers a division (R51). -/
theorem Chest.sweepCovers_revoice (c : Chest) (set : Divisions) (d : Division) :
    c.sweepCovers .revoice set d = true ↔ c.revoices set d := by
  simp [Chest.sweepCovers, Chest.revoices]

/-- An OFF and a MUTE cover every division (R49, R50), a REVOICE the enabled ones of its set (R51). -/
theorem Chest.sweepCovers_iff (c : Chest) (w : Sweep) (d : Division) :
    c.sweepCovers w.kind w.set d = true ↔ (w.kind = .revoice → c.revoices w.set d) := by
  cases h : w.kind <;> simp [Chest.sweepCovers, Chest.revoices]

/-- After the last key of a division: the next that the sweep covers (R48). -/
theorem Chest.sweepAdvance_division {c : Chest} {w : Sweep} {d : Division}
    (hk : compass w.division ≤ w.key + 1) (hd : w.division < d) (hc : c.sweepCovers w.kind w.set d = true)
    (hl : ∀ e, w.division < e → e < d → c.sweepCovers w.kind w.set e = false) :
    c.sweepAdvance w = { w with division := d, key := 0 } := by
  have hf : divisionOrder.find? (fun e => decide (w.division < e) && c.sweepCovers w.kind w.set e) = some d :=
    divisionOrder_find (by simp [hd, hc]) fun e he => by
      by_cases h : w.division < e <;> simp [h, hl e _ he]
  simp only [Chest.sweepAdvance, hf, if_neg (Nat.not_lt.2 hk)]

/-- After the last key of the last division that the sweep covers (R48). -/
theorem Chest.sweepAdvance_passed {c : Chest} {w : Sweep} (hk : compass w.division ≤ w.key + 1)
    (hl : ∀ e, w.division < e → c.sweepCovers w.kind w.set e = false) :
    c.sweepAdvance w = { w with passed := true } := by
  have hf : divisionOrder.find? (fun e => decide (w.division < e) && c.sweepCovers w.kind w.set e) = none :=
    divisionOrder_find_none fun e => by by_cases h : w.division < e <;> simp [h, hl e]
  simp only [Chest.sweepAdvance, hf, if_neg (Nat.not_lt.2 hk)]

/-- A key's entry at the start of a MUTE (R50). -/
theorem Chest.startMute_sound (c : Chest) (h : Table.wf SoundEntry.quiet c.sounding = true) (d : Division)
    (k : Nat) : c.startMute.sound d k = { c.sound d k with pendingOn := false, due := false } :=
  Table.get_mapValues SoundEntry.unpend rfl _ _ h

/-- A REVOICE at its start: at the lowest enabled division of its set (R48, R51). -/
theorem Chest.startRevoice_first {c : Chest} {set : Divisions} {d : Division} (h : c.revoices set d)
    (hl : ∀ e, e < d → ¬ c.revoices set e) : (c.startRevoice set).sweep =
      some { kind := .revoice, set := set, division := d, key := 0, passed := false } := by
  have hf := divisionOrder_find (p := c.sweepCovers .revoice set) ((c.sweepCovers_revoice set d).2 h)
    fun e he => by simpa using mt (c.sweepCovers_revoice set e).1 (hl e he)
  simp [Chest.startRevoice, Chest.sweepAtStart, hf]

/-- A REVOICE with no enabled division in its set has passed its last key (R51). -/
theorem Chest.startRevoice_passed {c : Chest} {set : Divisions} (h : ∀ d, ¬ c.revoices set d) :
    ∃ w, (c.startRevoice set).sweep = some w ∧ w.kind = .revoice ∧ w.set = set ∧ w.passed = true := by
  have hf := divisionOrder_find_none (p := c.sweepCovers .revoice set)
    fun e => by simpa using mt (c.sweepCovers_revoice set e).1 (h e)
  exact ⟨_, rfl, by simp [Chest.sweepAtStart, hf]⟩

/-! ### The contributor list of a fusion window -/

/-- The order of the contributor list: by arrival frame, counted from the opening arrival, then by pickup number
(R86). -/
theorem Contributor.before_iff {opening : Frame} {c d : Contributor} : c.before opening d = true ↔
    (c.arrival - opening).toNat < (d.arrival - opening).toNat
      ∨ c.arrival = d.arrival ∧ c.pickup < d.pickup := by
  have he : (c.arrival - opening).toNat = (d.arrival - opening).toNat ↔ c.arrival = d.arrival := by
    rw [BitVec.toNat_inj]
    exact ⟨fun h => by simpa using congrArg (· + opening) h, fun h => by rw [h]⟩
  simp only [Contributor.before, Bool.or_eq_true, Bool.and_eq_true, decide_eq_true_eq, beq_iff_eq, he, Fin.lt_def]

/-- Of two contributors of different pickups one stands before the other (R86). -/
theorem Contributor.before_total {opening : Frame} {c d : Contributor} (hp : d.pickup ≠ c.pickup)
    (h : c.before opening d ≠ true) : d.before opening c = true := by
  simp only [ne_eq, Contributor.before_iff, not_or, not_and, not_lt] at h ⊢
  rcases Nat.lt_or_ge (d.arrival - opening).toNat (c.arrival - opening).toNat with hl | hl
  · exact .inl hl
  · have he : c.arrival = d.arrival := by
      have := congrArg (· + opening) (BitVec.toNat_inj.1 (Nat.le_antisymm hl h.1))
      simpa using this
    exact .inr ⟨he.symm, lt_of_le_of_ne (h.2 he) hp⟩

/-- A contributor takes its place: behind what stands before it, ahead of the first that it stands before (R86, R89). -/
theorem contributorInsert_split (opening : Frame) (c : Contributor) (l : List Contributor)
    (hp : ∀ d ∈ l, d.pickup ≠ c.pickup) : ∃ ahead behind, l = ahead ++ behind
      ∧ contributorInsert opening c l = ahead ++ c :: behind
      ∧ (∀ d ∈ ahead, d.before opening c = true)
      ∧ ∀ d, behind.head? = some d → c.before opening d = true := by
  induction l with
  | nil => exact ⟨[], [], rfl, rfl, by simp, by simp⟩
  | cons x l ih =>
    by_cases hb : c.before opening x = true
    · exact ⟨[], x :: l, rfl, by simp [contributorInsert, hb], by simp, fun d hd => by cases hd; exact hb⟩
    · obtain ⟨a, b, h1, h2, h3, h4⟩ := ih fun d hd => hp d (by simp [hd])
      refine ⟨x :: a, b, by simp [h1], by simp [contributorInsert, hb, h2], fun d hd => ?_, h4⟩
      rcases List.mem_cons.1 hd with rfl | hd
      · exact Contributor.before_total (hp d (by simp)) hb
      · exact h3 d hd

/-! ### Deliveries of the cue matcher -/

/-- Nothing reaches the tracker while the wait stamp stands (R100). -/
theorem State.deliver_unchanged {s : State} (h : s.matcher.waitStamp = s.tracker.waitStamp) :
    s.deliver none = s := by
  simp [State.deliver, h]

/-- The greatest position in su and units (R132). -/
theorem Config.greatestPosition_eq : Config.greatestPosition = 2147483647 * 65536 + 65535 := by decide

/-- An increase that would reach the wait stamp stops there (R121). -/
theorem Tracker.landing_wait {t : Tracker} {p w : Nat} (hw : t.waitStamp = some w)
    (h1 : t.position ≤ w * 65536) (h2 : w * 65536 ≤ p) : t.landing p = .wait (w * 65536) := by
  unfold Tracker.landing
  rw [hw]
  refine (if_pos h2).trans ?_
  show Landing.wait (max t.position (w * 65536)) = _
  rw [Nat.max_eq_right h1]

/-- An increase short of the wait stamp that passes the range saturates (R132). -/
theorem Tracker.landing_saturated {t : Tracker} {p : Nat} (hw : ∀ x, t.waitStamp = some x → p < x * 65536)
    (h : 2147483647 < p / 65536) : t.landing p = .saturated := by
  have hg : Config.greatestPosition < p := by rw [Config.greatestPosition_eq]; omega
  unfold Tracker.landing
  cases hx : t.waitStamp with
  | none => exact if_pos hg
  | some x =>
    have h3 := hw x hx
    exact (if_neg (by show ¬ (x * 65536 ≤ p); omega)).trans (if_pos hg)

/-- An increase short of the wait stamp and within the range is free (R118). -/
theorem Tracker.landing_free {t : Tracker} {p : Nat} (hw : ∀ x, t.waitStamp = some x → p < x * 65536)
    (h : p / 65536 ≤ 2147483647) : t.landing p = .free p := by
  have hg : ¬ Config.greatestPosition < p := by rw [Config.greatestPosition_eq]; omega
  unfold Tracker.landing
  cases hx : t.waitStamp with
  | none => exact if_neg hg
  | some x =>
    have h3 := hw x hx
    exact (if_neg (by show ¬ (x * 65536 ≤ p); omega)).trans (if_neg hg)

/-- The position stands on the wait stamp, in units of the fraction (R125). -/
theorem Tracker.onWaitStamp_eq (t : Tracker) :
    t.onWaitStamp = t.waitStamp.any (fun w => w * 65536 == t.position) := by
  unfold Tracker.onWaitStamp; cases t.waitStamp <;> rfl

/-- A delivery of the matcher without a message, outside WAITING and with the position on no wait stamp: the
tracker takes the wait stamp and goes on as it was (R100, R121). -/
theorem State.deliver_stored {s : State} (h1 : s.tracker.state ≠ .waiting) (h2 : s.matcher.announced ≠ .waiting)
    (h3 : s.tracker.state.advancing = true → ∀ w, s.matcher.waitStamp = some w → s.tracker.position ≠ w * 65536) :
    s.deliver none = { s with tracker := { s.tracker with waitStamp := s.matcher.waitStamp } } := by
  by_cases h : s.matcher.waitStamp = s.tracker.waitStamp
  · rw [State.deliver_unchanged h, h]
  · have hm : s.matcher.stopTimer = s.matcher := if_neg h2
    have ht : s.tracker.takeStamp s.matcher.waitStamp
        = TrackerResult.plain { s.tracker with waitStamp := s.matcher.waitStamp } := by
      have hq : s.tracker.state.advancing = true →
          ({ s.tracker with waitStamp := s.matcher.waitStamp } : Tracker).waitCheck = [] := by
        intro ha
        simp only [Tracker.waitCheck, Tracker.onWaitStamp_eq]
        cases hw : s.matcher.waitStamp with
        | none => rfl
        | some w => simpa using fun x => h3 ha w hw x.symm
      unfold Tracker.takeStamp
      cases hs : s.tracker.state <;> simp [hs, TrackerState.advancing] at h1 hq ⊢ <;>
        simp [hq, TrackerResult.plain]
    unfold State.deliver
    simp only [h, false_and, if_false, hm]
    cases s.loader.installed <;> simp [Tracker.deliver, ht, State.applyTracker, TrackerResult.plain, State.raiseAll, State.changeAll]

/-- A change into a running state, from any state but WINDING, and all that its announcement brings (R115). -/
theorem State.changeState_running {s : State} {i : Installed} (hi : s.loader.installed = some i)
    {new : TrackerState} (hn : new.running = true) (ho : s.tracker.state ≠ .winding) (c : StateCause) :
    s.changeState new c =
      { s with
        tracker := s.tracker.enter new,
        matcher := s.matcher.announce s.tracker.state new,
        fuser := { s.fuser with running := true },
        run := { s.run with announced := new },
        loader := { s.loader with announced := new },
        report := { s.report with refreshDue := true },
        raised := s.raised ++ [s.reported .tracker (.state s.tracker.state new c)] } := by
  have ha : s.announce new c =
      { s with
        tracker := s.tracker.enter new,
        matcher := s.matcher.announce s.tracker.state new,
        fuser := { s.fuser with running := true },
        run := { s.run with announced := new },
        loader := { s.loader with announced := new },
        report := { s.report with refreshDue := true },
        raised := s.raised ++ [s.reported .tracker (.state s.tracker.state new c)] } := by
    simp only [State.announce]
    rw [State.raise_installed (i := i) _ _ hi]
    have hf : s.fuser.announce new = { s.fuser with running := true } := if_pos hn
    have hr : ∀ n, s.run.announce n new = { s.run with announced := new } := by
      intro n; cases new <;> first | rfl | cases hn
    simp only [State.demandRefresh, hi, hf, hr, Option.isSome_some, if_true, ReportWriter.demandRefresh]
  unfold State.changeState
  rw [ha]
  cases new <;> first | rfl | exact if_neg ho | cases hn

/-- A delivery without a message that leaves no WAIT cue on the position of a tracker in WAITING: the wait timer
stops, and the tracker goes on in its return state (R110, R127). -/
theorem State.deliver_released {s : State} {i : Installed} {back : TrackerState}
    (hi : s.loader.installed = some i) (h1 : s.tracker.state = .waiting) (h2 : s.matcher.announced = .waiting)
    (h3 : s.matcher.waitStamp ≠ s.tracker.waitStamp)
    (h4 : ∀ w, s.matcher.waitStamp = some w → s.tracker.position < w * 65536)
    (h5 : s.tracker.returnState = some back) (h6 : back = .leading ∨ back = .following ∨ back = .coasting) :
    s.deliver none = { s with
      matcher := { s.matcher with timerStopped := true, expiryDue := false, announced := back },
      tracker := { s.tracker with
        state := back, returnState := none, waitStamp := s.matcher.waitStamp,
        resume := s.tracker.resume && back != .leading,
        awaitingClear := s.tracker.awaitingClear && back != .leading },
      fuser := { s.fuser with running := true },
      run := { s.run with announced := back },
      loader := { s.loader with announced := back },
      report := { s.report with refreshDue := true },
      raised := s.raised ++ [s.reported .tracker (.state .waiting back .waitReleased)] } := by
  have hm : s.matcher.stopTimer = { s.matcher with timerStopped := true, expiryDue := false } := if_pos h2
  have hon : ({ s.tracker with waitStamp := s.matcher.waitStamp } : Tracker).onWaitStamp = false
      ∧ ({ s.tracker with waitStamp := s.matcher.waitStamp } : Tracker).waitStampStale = false := by
    rw [Tracker.onWaitStamp_eq]; unfold Tracker.waitStampStale
    cases hw : s.matcher.waitStamp with
    | none => exact ⟨rfl, rfl⟩
    | some w =>
      have := h4 w hw
      refine ⟨?_, ?_⟩
      · simp; omega
      · exact decide_eq_false (by show ¬ (w * 65536 < s.tracker.position); omega)
  have ht : s.tracker.takeStamp s.matcher.waitStamp
      = { tracker := { s.tracker with waitStamp := s.matcher.waitStamp }, reports := [],
          changes := [(back, .waitReleased)] } := by
    simp only [Tracker.takeStamp, h5]
    split <;> simp_all
  unfold State.deliver
  simp only [h3, false_and, if_false, hm, hi, Tracker.deliver, ht]
  have hb : back.running = true := by rcases h6 with rfl | rfl | rfl <;> rfl
  simp only [State.applyTracker, State.raiseAll, State.changeAll]
  rw [State.changeState_running (i := i) (by exact hi) hb (by show s.tracker.state ≠ _; rw [h1]; decide)]
  rcases h6 with rfl | rfl | rfl <;>
    simp [Tracker.enter, Matcher.announce, h1, hi, State.reported, Tracker.integer]

/-- A delivery without a message that brings the wait stamp to the position of a tracker in LEADING, FOLLOWING or
COASTING: it enters WAITING (R125). -/
theorem State.deliver_reached {s : State} {i : Installed} {w : Nat}
    (hi : s.loader.installed = some i) (h1 : s.tracker.state.advancing = true)
    (h2 : s.matcher.announced = s.tracker.state) (h3 : s.matcher.waitStamp = some w)
    (h4 : s.tracker.waitStamp ≠ some w) (h5 : s.tracker.position = w * 65536) :
    s.deliver none = { s with
      matcher := { s.matcher with
        timer := 0, timerStopped := false, expiryDue := false, announced := .waiting },
      tracker := { s.tracker with
        state := .waiting, returnState := some s.tracker.state, lag := 0, waitStamp := some w },
      fuser := { s.fuser with running := true },
      run := { s.run with announced := .waiting },
      loader := { s.loader with announced := .waiting },
      report := { s.report with refreshDue := true },
      raised := s.raised ++ [s.reported .tracker (.state s.tracker.state .waiting .waitReached)] } := by
  have hw : s.tracker.state ≠ .winding := by intro h; rw [h] at h1; cases h1
  have hm : s.matcher.stopTimer = s.matcher := if_neg (by rw [h2]; intro h; rw [h] at h1; cases h1)
  have ht : s.tracker.takeStamp (some w)
      = { tracker := { s.tracker with waitStamp := some w }, reports := [],
          changes := [(.waiting, .waitReached)] } := by
    unfold Tracker.takeStamp
    cases hs : s.tracker.state <;> simp [hs, TrackerState.advancing] at h1 ⊢ <;>
      simp [Tracker.waitCheck, Tracker.onWaitStamp_eq, h5]
  unfold State.deliver
  simp only [h3, Ne.symm h4, false_and, if_false, hm, hi, Tracker.deliver, ht]
  simp only [State.applyTracker, State.raiseAll, State.changeAll]
  rw [State.changeState_running (i := i) (by exact hi) rfl (by exact hw)]
  simp [Tracker.enter, Matcher.announce, hi, State.reported, Tracker.integer]

/-- In IDLE the tracker takes the wait stamp and no more (R125). -/
theorem State.deliver_idle {s : State} (h : s.tracker.state = .idle) (h2 : s.matcher.announced = .idle) :
    s.deliver none = { s with tracker := { s.tracker with waitStamp := s.matcher.waitStamp } } :=
  State.deliver_stored (by rw [h]; decide) (by rw [h2]; decide) (by rw [h]; nofun)

/-- A cue without WAIT leaves the wait stamp as it is (R100). -/
theorem leastWait_insert (e : CueEntry) (he : e.wait = false) (q : List CueEntry) :
    leastWait (cueInsert e q) = leastWait q := by
  induction q with
  | nil => simp [cueInsert, leastWait, he]
  | cons f q ih =>
    simp only [cueInsert]; split
    · simp [leastWait, he]
    · simp [leastWait, ih]

/-! ### The port and the score area -/

/-- The completion of the access on the port (R154). -/
theorem State.portDone_access {s : State} {a : PortAccess} (h : s.path.port = some a) :
    s.portDone = (State.complete a { s with path := { s.path with port := none } }).pump := by
  simp [State.portDone, h]

/-- A command that is a processor access is that access (R150). -/
theorem exec_access {c : Instr} {a : ProcAccess} {s : State} (h : accessOf c = some a) :
    exec c s = .next (s.access a) := by
  cases c <;> simp [accessOf] at h <;> try (subst h; rfl)
  case runBlockWrite w v => cases w <;> simp at h <;> (subst h; rfl)

/-- A write into the score area on a free port (R1). -/
theorem State.scoreWrite_free (s : State) (v : Word) (address : Addr) (i : Installed) (n k : Nat)
    (hf : s.portFree) (hi : s.loader.installed = some i)
    (hr : regionOf (some i) address.toNat = .score)
    (ha : address.toNat = i.scoreBase + 4 * n + k) (hk : k < 4) :
    s.processorWrite address.toNat v = ((s.store address.toNat v).scoreWrite n k v).pump := by
  rw [State.processorWrite_free s _ _ hf (by simp [State.dropped, hi, hr])]
  have hv : s.inverts address.toNat = false := by simp [State.inverts, hi, hr]
  have e1 : (address.toNat - i.scoreBase) / 4 = n := by omega
  have e2 : (address.toNat - i.scoreBase) % 4 = k := by omega
  have hi' : (s.store address.toNat v).loader.installed = some i := hi
  have : (s.store address.toNat v).snoop address.toNat v
      = (s.store address.toNat v).scoreWrite n k v := by
    unfold State.snoop; rw [hi', hr]; simp only [e1, e2]
  simp [hv, State.storeAndSnoop, this, throughPolarity]

/-! ### The run controller -/

/-- A run controller with nothing left of its frame event (log entry 28). -/
theorem State.finishRun_done {s : State} (h : s.run.stage = .done) : s.finishRun = s := by
  have : s.runStage = s := by simp [State.runStage, h]
  simp [State.finishRun, this]

/-- A write of word 75 under an installed configuration, on a free port (R136). -/
theorem State.commandWrite_free (s : State) (v : Word) (i : Installed) (hf : s.portFree)
    (hi : s.loader.installed = some i) (h : s.run.stage = .done) (hv : v ≠ 0) :
    s.processorWrite 75 v =
      (if v = 1 then (s.store 75 v).takeStart i
       else if v = 2 then (s.store 75 v).takeStop
       else if v = 3 then (s.store 75 v).takeResume
       else (s.store 75 v).commandReport v .unknown none s.run.announced 0 0).pump := by
  rw [State.anchorWrite_free s _ _ hf (by omega)]
  have hi' : (s.store 75 v).loader.installed = some i := hi
  have hd : (s.store 75 v).finishRun = s.store 75 v := State.finishRun_done h
  have : (s.store 75 v).anchorSnoop 75 v = (s.store 75 v).command v := by simp [State.anchorSnoop]
  rw [this]
  unfold State.command
  rw [hi']
  simp only [hv, if_false, hd]
  rfl

/-- A change into HALTED at every block (R115, R131). -/
theorem State.changeState_halted {s : State} {i : Installed} (hi : s.loader.installed = some i)
    (c : StateCause) :
    ∃ port, s.changeState .halted c =
      { s with
        chest := s.chest.requestSweep .mute Divisions.all,
        path := { s.path with port := port },
        tracker := { s.tracker with state := .halted, resume := false, awaitingClear := false },
        matcher := { s.matcher with announced := .halted, expiryDue := false },
        fuser := { window := none, running := false },
        run := { s.run.endWinding with announced := .halted },
        loader := { s.loader with announced := .halted },
        report := { s.report with refreshDue := true },
        raised := s.raised ++ [s.reported .tracker (.state s.tracker.state .halted c)] } := by
  simp only [State.changeState, State.announce]
  rw [State.raise_installed (i := i) _ _ (by exact hi)]
  simp only [State.demandRefresh, hi, Option.isSome_some, if_true, State.requestSweep]
  split
  · refine ⟨abandonChestWrite false s.path.port, ?_⟩
    simp [hi, Tracker.enter, Matcher.announce, Fuser.announce, TrackerState.running,
      RunControl.announce, RunControl.endWinding, ReportWriter.demandRefresh]
  · refine ⟨s.path.port, ?_⟩
    simp [hi, Tracker.enter, Matcher.announce, Fuser.announce, TrackerState.running,
      RunControl.announce, RunControl.endWinding, ReportWriter.demandRefresh]

/-- The hold timer's step changes the timer and the stage alone (R144). -/
theorem RunControl.holdStep_keeps (r : RunControl) :
    r.holdStep.limitRunning = r.limitRunning ∧ r.holdStep.wind = r.wind
      ∧ r.holdStep.windReq = r.windReq ∧ r.holdStep.settle = r.settle
      ∧ r.holdStep.readyReported = r.readyReported ∧ r.holdStep.cancelHeld = r.cancelHeld
      ∧ r.holdStep.announced = r.announced := by
  unfold RunControl.holdStep
  split
  · split <;> simp
  · simp

/-! ### Reports taken, and their words (R165, R178) -/

/-- The causes that the tracker's STATE reports for a match carry (R108). -/
theorem StateCause.ofMatch_iff (c : StateCause) : c.ofMatch = true
    ↔ c = .capture ∨ c = .waitEnd ∨ c = .waitReached ∨ c = .rangeEnd := by cases c <;> simp [StateCause.ofMatch]

/-- The causes of the STATE reports behind which the COMMAND of a START stands (R138). -/
theorem StateCause.aheadOfStart_iff (c : StateCause) : c.aheadOfStart = true
    ↔ c = .start ∨ c = .stop ∨ c = .cancel := by cases c <;> simp [StateCause.aheadOfStart]

/-- The pairs of reports that wait for one another, in the words of the claims (R31, R108, R138). -/
theorem Report.mustPrecede_iff (e l : Report) : e.mustPrecede l = true ↔ e.comesBefore l := by
  unfold Report.comesBefore
  constructor
  · intro h
    unfold Report.mustPrecede at h
    split at h
    case h_9 => cases h
    all_goals simp_all [StateCause.ofMatch_iff, StateCause.aheadOfStart_iff]
  · rintro (⟨⟨_, _, _, _, _, rfl⟩, ⟨_, _, _, rfl⟩ | ⟨_, _, _, rfl⟩ | ⟨_, _, _, rfl⟩⟩
      | ⟨⟨_, _, _, _, rfl⟩ | ⟨_, _, _, _, _, _, rfl⟩,
          ⟨_, _, rfl⟩ | ⟨_, _, _, rfl, rfl | rfl | rfl | rfl⟩⟩
      | ⟨⟨_, _, _, rfl, rfl | rfl | rfl⟩, ⟨_, _, _, _, rfl⟩⟩) <;> rfl

/-- The oldest report of a block, behind reports of other blocks. -/
theorem splitRaised_oldest {b : Block} {before rest : List Raised} {r : Raised} (h : ∀ x ∈ before, x.block ≠ b)
    (hr : r.block = b) : splitRaised b (before ++ r :: rest) = some (before, r, rest) := by
  induction before with
  | nil => simp [splitRaised, hr]
  | cons x t ih =>
    simp only [List.cons_append, splitRaised, h x (by simp), if_false,
      ih (fun y hy => h y (by simp [hy]))]

/-- A block that has raised nothing has no oldest report. -/
theorem splitRaised_none {b : Block} {l : List Raised} (h : ∀ x ∈ l, x.block ≠ b) : splitRaised b l = none := by
  induction l with
  | nil => rfl
  | cons x t ih =>
    simp only [splitRaised, h x (by simp), if_false, ih (fun y hy => h y (by simp [hy]))]

/-- The contributor set of a record holds a one for each contributor and no other (R178). -/
theorem contributorSet_bit (ks : List PickupNo) (b : Nat) :
    (contributorSet ks).getLsbD b = true ↔ ∃ k ∈ ks, k.val = b := by
  unfold contributorSet
  suffices h : ∀ w : Word, (ks.foldl (fun w k => w ||| BitVec.twoPow 16 k.val) w).getLsbD b = true
      ↔ w.getLsbD b = true ∨ ∃ k ∈ ks, k.val = b by simpa using h 0
  induction ks with
  | nil => simp
  | cons k ks ih =>
    intro w
    have hk := k.isLt
    simp only [List.foldl_cons, ih, List.mem_cons, BitVec.getLsbD_or, BitVec.getLsbD_twoPow, Bool.or_eq_true,
      exists_eq_or_imp, Bool.and_eq_true, decide_eq_true_eq]
    constructor
    · rintro ((h | ⟨_, h⟩) | h)
      · exact .inl h
      · exact .inr (.inl h)
      · exact .inr (.inr h)
    · rintro (h | h | h)
      · exact .inl (.inl h)
      · exact .inl (.inr ⟨by omega, h⟩)
      · exact .inr h

/-! ### The arbiter's grants (R155) -/

/-- A part request is granted while no processor access waits, or one waits at a count below 2. -/
theorem State.arbitrate_part {s : State} {a : PortAccess} (hp : s.path.port = none)
    (hw : s.path.waiting = none ∨ s.path.yieldCount < 2) (ha : s.partRequest = some a) :
    s.arbitrate = s.grantPart := by
  unfold State.arbitrate
  simp only [hp, ha]
  rcases hw with hw | hw
  · simp [hw]
  · cases h : s.path.waiting <;> simp [Nat.not_le.2 hw]

/-- A granted part request goes on the port; a write-back waits for its own row (log entry 8). -/
theorem State.grantPart_some {s : State} {a : PortAccess} (ha : s.partRequest = some a)
    (hn : ∀ n v, a ≠ .writeBack n v)  :
    s.grantPart = s.countYield.grant a := by
  unfold State.grantPart; rw [ha]
  cases a <;> simp_all

/-! ### Slot events (R60, R70, R102) -/

/-- The fold of the largest delay ends at a bound that the start or a pickup in LISTENING reaches. -/
theorem foldl_delay (l : List Pickup) (n d : Nat)
    (h1 : ∀ p ∈ l, p.state = .listening → p.entry.delay ≤ d) (hn : n ≤ d)
    (h2 : n = d ∨ ∃ p ∈ l, p.state = .listening ∧ p.entry.delay = d) :
    l.foldl (fun n p => if p.state = .listening then max n p.entry.delay else n) n = d := by
  induction l generalizing n with
  | nil => simpa using h2
  | cons p t ih =>
    simp only [List.foldl_cons]
    apply ih
    · exact fun q hq => h1 q (by simp [hq])
    · split
      · have := h1 p (by simp) ‹_›; omega
      · exact hn
    · rcases h2 with h2 | ⟨q, hq, hs, hd⟩
      · left; split
        · have := h1 p (by simp) ‹_›; omega
        · exact h2
      · rcases List.mem_cons.1 hq with rfl | hq
        · left; simp [hs, hd]; omega
        · exact .inr ⟨q, hq, hs, hd⟩

/-- The largest delay is the bound that a pickup in LISTENING reaches, or 0 (R102). -/
theorem Link.largestDelay_eq {l : Link} {d : Nat}
    (h1 : ∀ j : PickupNo, l.pickups[j].state = .listening → l.pickups[j].entry.delay ≤ d)
    (h2 : d = 0 ∨ ∃ j : PickupNo, l.pickups[j].state = .listening ∧ l.pickups[j].entry.delay = d) :
    l.largestDelay = d := by
  have hm : ∀ p, p ∈ l.pickups.toList ↔ ∃ j : PickupNo, l.pickups[j] = p := by
    intro p
    rw [Vector.mem_toList_iff, Vector.mem_iff_getElem]
    exact ⟨fun ⟨n, hn, h⟩ => ⟨⟨n, hn⟩, h⟩, fun ⟨j, h⟩ => ⟨j.val, j.isLt, h⟩⟩
  unfold Link.largestDelay
  refine foldl_delay _ _ _ ?_ (Nat.zero_le d) ?_
  · intro p hp
    obtain ⟨j, rfl⟩ := (hm p).1 hp
    exact h1 j
  · rcases h2 with h2 | ⟨j, hs, hd⟩
    · exact .inl h2.symm
    · exact .inr ⟨_, (hm _).2 ⟨j, rfl⟩, hs, hd⟩

/-- The onset tests raise no report. -/
theorem Pickup.onsetTests_reason (k : PickupNo) (now : Frame) (p : Pickup)
    (before : Option Nat) (code : Nat) : (p.onsetTests k now before code).reason = none := by
  unfold Pickup.onsetTests; repeat' split
  all_goals simp [PickupResult.plain]

/-- The handshake accepts no onset at a good slot. -/
theorem Pickup.handshakeGood_onset (p : Pickup) (h : Handshake) (ack : Bool) :
    (p.handshakeGood h ack).onset = none := by
  unfold Pickup.handshakeGood Pickup.quietPhase Pickup.inactiveAck; simp only []; repeat' split
  all_goals rfl

/-- The handshake accepts no onset at a parity failure. -/
theorem Pickup.handshakeParity_onset (p : Pickup) (h : Handshake) :
    (p.handshakeParity h).onset = none := by
  unfold Pickup.handshakeParity Pickup.quietPhase; repeat' split
  all_goals rfl

/-- A good slot of a pickup in LISTENING that does not fault it goes to the onset tests (R66, R71, R72). -/
theorem Pickup.slotEvent_listening (k : PickupNo) (now : Frame) (bits : BitVec 8) {p : Pickup}
    (hs : p.state = .listening) (hh : p.handshake = none) (hg : slotGood bits = true)
    (hc : ¬ (slotCode bits = 15 ∧ p.lastCode = some 15))
    (ha : p.stuckRun < 3
      ∨ p.stuckRun = 3 ∧ ∀ l, p.lastLiveness = some l → slotLiveness bits = (l + 1) % 4) :
    p.slotEvent k now bits =
      (let r := (({ p with quiet := p.quietAfter } : Pickup).noteGood (slotCode bits)
        (slotLiveness bits)).onsetTests k now p.lastCode (slotCode bits)
      { r with pickup := r.pickup.settle }) := by
  have hst : (({ p with quiet := p.quietAfter } : Pickup).noteGood (slotCode bits)
      (slotLiveness bits)).stuckRun ≠ 4 := by
    simp only [Pickup.noteGood, classLiveness]
    cases hl : p.lastLiveness with
    | none => simp [stuckRunAfter]; omega
    | some l =>
      by_cases hx : slotLiveness bits = (l + 1) % 4
      · simp [stuckRunAfter, hx]
      · simp [hl, hx] at ha; simp [stuckRunAfter, hx, Config.stuckLimit]; omega
  have hh' : ({ p with quiet := p.quietAfter } : Pickup).handshake = none := hh
  have hs' : ({ p with quiet := p.quietAfter } : Pickup).state = .listening := hs
  unfold Pickup.slotEvent Pickup.goodSlot
  generalize hq : ({ p with quiet := p.quietAfter } : Pickup) = q at *
  have hlc : q.lastCode = p.lastCode := by rw [← hq]
  have hm : q.monitored = true := by simp [Pickup.monitored, hs']
  simp [hm, hs', hg, hlc, hc, Config.stuckLimit, hst, hh']

/-- A slot event that raises a PICKUP report accepts no onset (R70, R72). -/
theorem Pickup.slotEvent_exclusive (k : PickupNo) (now : Frame) (bits : BitVec 8) (p : Pickup)
    (h : (p.slotEvent k now bits).reason ≠ none) : (p.slotEvent k now bits).onset = none := by
  unfold Pickup.slotEvent at *
  generalize { p with quiet := p.quietAfter } = q at *
  simp only [] at *
  split at h
  · simp_all [PickupResult.plain]
  · rename_i hm
    rw [if_neg hm]
    split at h
    · rename_i hg
      rw [if_pos hg]
      unfold Pickup.goodSlot Pickup.recoveryTest at *
      generalize q.noteGood (slotCode bits) (slotLiveness bits) = u at *
      simp only [] at *
      repeat' split
      all_goals first | rfl | simp_all [Pickup.handshakeGood_onset, Pickup.onsetTests_reason]
    · rename_i hg
      rw [if_neg hg]
      unfold Pickup.parityFailure at *
      generalize q.noteParityFailure = u at *
      simp only [] at *
      repeat' split
      all_goals first | rfl | simp_all [Pickup.handshakeParity_onset]

/-- A write is dropped in the log area, the status block and the protected chest, and nowhere else (R56, R152). -/
theorem State.dropped_iff {s : State} {n : Nat} {r : DropRegion} :
    s.dropped n = some r ↔
    (regionOf s.loader.installed n = .chest ∧ (s.tracker.state ≠ .idle ∨ s.chest.sweep ≠ none) ∧ r = .chest
      ∨ regionOf s.loader.installed n = .log ∧ r = .log
      ∨ regionOf s.loader.installed n = .status ∧ r = .status) := by
  unfold State.dropped
  have hc : s.chestProtected = true ↔ (s.tracker.state ≠ .idle ∨ s.chest.sweep ≠ none) := by
    unfold State.chestProtected; simp [Option.isSome_iff_ne_none]
  cases h : regionOf s.loader.installed n
  case chest =>
    by_cases hp : s.chestProtected = true
    · simp [hp, hc.1 hp, eq_comm (a := r)]
    · simp [hp, mt hc.2 hp]
  all_goals simp [eq_comm (a := r)]

/-- With the port free, a processor access at a count of 2, or with no part requester waiting, is granted; a fetch may
begin and request before it (R6, R155). -/
theorem State.pump_due {u : State} {a : ProcAccess} (hp : u.path.port = none) (hw : u.path.waiting = some a)
    (hy : u.path.yieldCount = 2
      ∨ u.chest.fifo = [] ∧ u.admission.request = none ∧ u.admission.list = [] ∧ u.loader.load = none
        ∧ u.loader.pickupList = [] ∧ u.path.writeBacks = [] ∧ u.report.task = none) :
    ∃ adm, u.pump = ({ u with admission := adm }.grantProcessor a).settleWait
      ∧ (u.admission.list = [] → adm = u.admission) := by
  have hb : ∃ adm, u.beginFetch.postFetch = { u with admission := adm }
      ∧ (u.admission.list = [] → adm = u.admission) := by
    unfold State.beginFetch State.postFetch
    cases hl : u.admission.list with
    | nil =>
      refine ⟨u.admission, ?_, fun _ => rfl⟩
      simp only [hl]
      cases u.loader.installed <;> cases u.admission.fetch <;> rfl
    | cons e l =>
      simp only [hl]
      split <;> split <;> (try split) <;> exact ⟨_, rfl, by simp⟩
  obtain ⟨adm, hb, hadm⟩ := hb
  refine ⟨adm, ?_, hadm⟩
  unfold State.pump
  rw [hb]
  congr 1
  unfold State.arbitrate
  simp only [hp, hw]
  rw [if_neg (by simp), if_pos]
  rcases hy with hy | ⟨h1, h2, h3, h4, h5, h6, h7⟩
  · left; omega
  · right
    rw [hadm h3]
    simp [State.partRequest, State.anchorRequest, ReportWriter.request, h1, h2, h4, h5, h6, h7, pickupHead]

/-! ### The start of a frame (R59) -/

/-- A frame before that has left nothing due has nothing to finish. -/
theorem State.finishFrame_quiet {s : State} (h : s.nothingDue) : s.finishFrame = s := by
  obtain ⟨h1, h2, h3, h4, h5, h6⟩ := h
  have e1 : s.expireWait = s := by unfold State.expireWait; cases s.loader.installed <;> simp [h2]
  have e2 : s.closeWindow = s := by unfold State.closeWindow; cases s.loader.installed <;> simp [h3]
  unfold State.finishFrame
  rw [State.finishRun_done h1, e1, e2, h4]

/-- The periodic refresh under an installed configuration (R171). -/
theorem State.frameRefresh_installed {s : State} {i : Installed} (hi : s.loader.installed = some i) :
    s.frameRefresh = { s with report := { s.report with
      refreshDue := s.report.refreshDue || s.link.frame.toNat % 20 == 0 } } := by
  unfold State.frameRefresh State.demandRefresh
  rw [hi]
  by_cases h : s.link.frame.toNat % 20 = 0
  · simp [h, Config.refreshPeriod, ReportWriter.demandRefresh]
  · simp [h, Config.refreshPeriod, beq_eq_false_iff_ne.2 h]

/-- The cue matcher outside the running states, which include WAITING, takes nothing of a frame start (R103, R110). -/
theorem State.matcherFrame_still {s : State} (h : s.matcher.announced.running = false) :
    s.matcherFrame = s := by
  have ht : ∀ n, s.matcher.tick n = s.matcher := by
    intro n; unfold Matcher.tick; rw [if_neg]; rintro ⟨a, _⟩; rw [a] at h; cases h
  unfold State.matcherFrame
  cases hi : s.loader.installed <;> simp [ht, h]

/-- The tracker in a state that does not advance writes the trail entry alone (R118, R120). -/
theorem State.trackerFrame_still {s : State} (h : s.tracker.state.advancing = false) :
    s.trackerFrame = { s with tracker := s.tracker.record s.link.frame } := by
  unfold State.trackerFrame Tracker.frameStart
  simp [h, State.applyTracker, TrackerResult.plain, State.changeAll, State.raiseAll]

/-- With the tracker and the matcher standing still, what the run controller alone does to itself is the frame's effect
beside the trail entry, in each order of the blocks. -/
theorem State.frameBlocks_still {s v : State} {r : RunControl} {c w : Bool} (o : FrameOrder)
    (ha : v.tracker.state.advancing = false) (hm : v.matcher.announced.running = false)
    (h1 : v.run = s.run) (h2 : v.loader = s.loader)
    (hr : ∀ x : State, x.run = s.run → x.loader = s.loader → x.runFrame c w = { x with run := r }) :
    v.frameBlocks c w o = { v with run := r, tracker := v.tracker.record v.link.frame } := by
  cases o <;> simp only [State.frameBlocks]
  · rw [State.trackerFrame_still ha, State.matcherFrame_still (by exact hm), hr _ (by exact h1) (by exact h2)]
  · rw [State.trackerFrame_still ha, hr _ (by exact h1) (by exact h2), State.matcherFrame_still (by exact hm)]
  · rw [State.matcherFrame_still hm, State.trackerFrame_still ha, hr _ (by exact h1) (by exact h2)]
  · rw [State.matcherFrame_still hm, hr _ (by exact h1) (by exact h2), State.trackerFrame_still (by exact ha)]
  · rw [hr _ (by exact h1) (by exact h2), State.trackerFrame_still (by exact ha),
      State.matcherFrame_still (by exact hm)]
  · rw [hr _ (by exact h1) (by exact h2), State.matcherFrame_still (by exact hm),
      State.trackerFrame_still (by exact ha)]

/-! ### The window's span (R88) -/

/-- The frames of a window's span: from its opening arrival, MergeSpan + 1 of them. -/
theorem Window.spans_iff {w : Window} {span : Nat} (hs : span < 2 ^ 32)
    (h : w.closing = w.opening + BitVec.ofNat 32 span) (a : Frame) :
    w.spans a = true ↔ ∃ n, n ≤ span ∧ a = w.opening + BitVec.ofNat 32 n := by
  have hc : (w.closing - w.opening).toNat = span := by
    rw [h, BitVec.add_comm, BitVec.add_sub_cancel, BitVec.toNat_ofNat, Nat.mod_eq_of_lt hs]
  unfold Window.spans
  rw [hc, decide_eq_true_iff]
  constructor
  · intro hn
    refine ⟨_, hn, ?_⟩
    rw [BitVec.ofNat_toNat, BitVec.setWidth_eq, BitVec.add_comm, BitVec.sub_add_cancel]
  · rintro ⟨n, hn, rfl⟩
    rw [BitVec.add_comm, BitVec.add_sub_cancel, BitVec.toNat_ofNat]
    exact Nat.le_trans (Nat.mod_le _ _) hn

end Sys2Proof.Machine
end

