-- ==== Sys2Proof/Laws/WaitFrame.lean ====
section
/-! SUPPORT. What the shared operations leave alone: none of these begins or ends a processor access's wait on
READY. (An arrival, a grant to the processor and RESET do.) -/

set_option linter.unusedTactic false
set_option linter.unnecessarySeqFocus false
set_option linter.unreachableTactic false

namespace Sys2Proof.Machine

@[simp] theorem State.discardFetch_waiting (s : State) : s.discardFetch.path.waiting = s.path.waiting := rfl
@[simp] theorem State.clearAdmission_waiting (s : State) : s.clearAdmission.path.waiting = s.path.waiting := rfl
@[simp] theorem State.restartFetch_waiting (s : State) : s.restartFetch.path.waiting = s.path.waiting := rfl
@[simp] theorem State.requestSweep_waiting (k : SweepKind) (d : Divisions) (s : State) : (s.requestSweep k d).path.waiting = s.path.waiting := by
  unfold State.requestSweep; dsimp only; split <;> rfl
@[simp] theorem State.raise_waiting (b : Block) (r : Report) (s : State) : (s.raise b r).path.waiting = s.path.waiting := by
  unfold State.raise; (try dsimp only); (repeat' split) <;> (try simp)
@[simp] theorem State.raiseAll_waiting (b : Block) (l : List Report) (s : State) : (State.raiseAll b l s).path.waiting = s.path.waiting := by
  induction l generalizing s with
  | nil => rfl
  | cons x t ih => simp only [State.raiseAll]; (repeat' split) <;> simp [ih]
@[simp] theorem State.commandReport_waiting (v : Word) (x : CommandResult) (y : Option CommandReason) (t : TrackerState) (m n : Nat) (s : State) : (s.commandReport v x y t m n).path.waiting = s.path.waiting := by
  unfold State.commandReport; (try dsimp only); (repeat' split) <;> (try simp)
@[simp] theorem State.bringCounts_waiting (s : State) : (s.bringCounts).path.waiting = s.path.waiting := by
  unfold State.bringCounts; (try dsimp only); (repeat' split) <;> (try simp)
@[simp] theorem State.demandRefresh_waiting (s : State) : s.demandRefresh.path.waiting = s.path.waiting := by
  unfold State.demandRefresh; (try dsimp only); (repeat' split) <;> (try simp)
@[simp] theorem State.setConfig_waiting (c : ConfigState) (s : State) : (s.setConfig c).path.waiting = s.path.waiting := by
  unfold State.setConfig; (try dsimp only); (repeat' split) <;> (try simp)
@[simp] theorem State.freeSlots_waiting (l : List Nat) (s : State) : (State.freeSlots l s).path.waiting = s.path.waiting := by
  induction l generalizing s with
  | nil => rfl
  | cons x t ih => simp only [State.freeSlots]; (repeat' split) <;> simp [ih]
@[simp] theorem State.noteEmptied_waiting (c : StarvedCause) (n : Option Nat) (s : State) : (s.noteEmptied c n).path.waiting = s.path.waiting := by
  unfold State.noteEmptied; (try dsimp only); (repeat' split) <;> (try simp)
@[simp] theorem State.maskChange_waiting (d : Division) (v : Word) (s : State) : (s.maskChange d v).path.waiting = s.path.waiting := by
  unfold State.maskChange; (try dsimp only); (repeat' split) <;> (try simp)
@[simp] theorem State.loadStart_waiting (s : State) : s.loadStart.path.waiting = s.path.waiting := by
  unfold State.loadStart; (try dsimp only); (repeat' split) <;> (try simp)
@[simp] theorem State.announce_waiting (n : TrackerState) (c : StateCause) (s : State) : (s.announce n c).path.waiting = s.path.waiting := by
  unfold State.announce; (try dsimp only); (repeat' split) <;> (try simp)
@[simp] theorem State.teardown_waiting (s : State) : s.teardown.path.waiting = s.path.waiting := by
  unfold State.teardown; (try dsimp only); (repeat' split) <;> (try simp)
@[simp] theorem State.beginRun_waiting (b : Bool) (s : State) : (s.beginRun b).path.waiting = s.path.waiting := by
  unfold State.beginRun; (try dsimp only); (repeat' split) <;> (try simp)
@[simp] theorem State.changeState_waiting (n : TrackerState) (c : StateCause) (s : State) : (s.changeState n c).path.waiting = s.path.waiting := by
  unfold State.changeState; (try dsimp only); (repeat' split) <;> (try simp)
@[simp] theorem State.changeAll_waiting (l : List (TrackerState × StateCause)) (s : State) : (State.changeAll l s).path.waiting = s.path.waiting := by
  induction l generalizing s with
  | nil => rfl
  | cons x t ih => simp only [State.changeAll]; (repeat' split) <;> simp [ih]
@[simp] theorem State.applyTracker_waiting (r : TrackerResult) (s : State) : (s.applyTracker r).path.waiting = s.path.waiting := by
  unfold State.applyTracker; (try dsimp only); (repeat' split) <;> (try simp)
@[simp] theorem State.deliver_waiting (m : Option Message) (s : State) : (s.deliver m).path.waiting = s.path.waiting := by
  unfold State.deliver; dsimp only; split_ifs <;> simp
@[simp] theorem State.applyMatcher_waiting (r : MatcherResult) (s : State) : (s.applyMatcher r).path.waiting = s.path.waiting := by
  unfold State.applyMatcher; (try dsimp only); (repeat' split) <;> (try simp)
@[simp] theorem State.takeFused_waiting (o : Option FusedOnset) (s : State) : (s.takeFused o).path.waiting = s.path.waiting := by
  unfold State.takeFused; (try dsimp only); (repeat' split) <;> (try simp)
@[simp] theorem State.recomputeLag_waiting (s : State) : s.recomputeLag.path.waiting = s.path.waiting := by
  unfold State.recomputeLag; (try dsimp only); (repeat' split) <;> (try simp)
@[simp] theorem State.takeOnset_waiting (o : Option Onset) (s : State) : (s.takeOnset o).path.waiting = s.path.waiting := by
  unfold State.takeOnset; (try dsimp only); (repeat' split) <;> (try simp)
@[simp] theorem State.grant_waiting (a : PortAccess) (s : State) : (s.grant a).path.waiting = s.path.waiting := by
  unfold State.grant; (try dsimp only); (repeat' split) <;> (try simp)
@[simp] theorem State.countYield_waiting (s : State) : s.countYield.path.waiting = s.path.waiting := by
  unfold State.countYield; (try dsimp only); (repeat' split) <;> (try simp)
@[simp] theorem State.grantPart_waiting (s : State) : s.grantPart.path.waiting = s.path.waiting := by
  unfold State.grantPart; (try dsimp only); (repeat' split) <;> (try simp)
@[simp] theorem State.drop_waiting (a : Nat) (v : Word) (r : DropRegion) (s : State) : (s.drop a v r).path.waiting = s.path.waiting := by
  unfold State.drop; (try dsimp only); (repeat' split) <;> (try simp)
@[simp] theorem State.listSlot_waiting (n : Nat) (v : Word) (s : State) : (s.listSlot n v).path.waiting = s.path.waiting := by
  unfold State.listSlot; (try dsimp only); (repeat' split) <;> (try simp)
@[simp] theorem State.withdrawNote_waiting (n : Nat) (s : State) : (s.withdrawNote n).path.waiting = s.path.waiting := by
  unfold State.withdrawNote; (try dsimp only); (repeat' split) <;> (try simp)
@[simp] theorem State.withdrawCue_waiting (n : Nat) (s : State) : (s.withdrawCue n).path.waiting = s.path.waiting := by
  unfold State.withdrawCue; (try dsimp only); (repeat' split) <;> (try simp)
@[simp] theorem State.editSlot_waiting (n : Nat) (s : State) : (s.editSlot n).path.waiting = s.path.waiting := by
  unfold State.editSlot; (try dsimp only); (repeat' split) <;> (try simp)
@[simp] theorem State.emptySlot_waiting (n : Nat) (s : State) : (s.emptySlot n).path.waiting = s.path.waiting := by
  unfold State.emptySlot; (try dsimp only); (repeat' split) <;> (try simp)
@[simp] theorem State.commitSlot_waiting (n : Nat) (v : Word) (s : State) : (s.commitSlot n v).path.waiting = s.path.waiting := by
  unfold State.commitSlot; (try dsimp only); (repeat' split) <;> (try simp)
@[simp] theorem State.scoreWrite_waiting (n k : Nat) (v : Word) (s : State) : (s.scoreWrite n k v).path.waiting = s.path.waiting := by
  unfold State.scoreWrite; (try dsimp only); (repeat' split) <;> (try simp)
@[simp] theorem State.admitted_waiting (n : Nat) (v : SlotState) (s : State) : (s.admitted n v).path.waiting = s.path.waiting := by
  unfold State.admitted; (try dsimp only); (repeat' split) <;> (try simp)
@[simp] theorem State.offerHold_waiting (e : HoldEntry) (s : State) : (s.offerHold e).path.waiting = s.path.waiting := by
  unfold State.offerHold; (try dsimp only); (repeat' split) <;> (try simp)
@[simp] theorem State.offerCue_waiting (e : CueEntry) (s : State) : (s.offerCue e).path.waiting = s.path.waiting := by
  unfold State.offerCue; (try dsimp only); (repeat' split) <;> (try simp)
@[simp] theorem State.placeRecord_waiting (n : Nat) (r : FetchedRecord) (s : State) : (s.placeRecord n r).path.waiting = s.path.waiting := by
  unfold State.placeRecord; (try dsimp only); (repeat' split) <;> (try simp)
@[simp] theorem State.judgeRecord_waiting (i : Installed) (n : Nat) (r : FetchedRecord) (s : State) : (s.judgeRecord i n r).path.waiting = s.path.waiting := by
  unfold State.judgeRecord; (try dsimp only); (repeat' split) <;> (try simp)
@[simp] theorem State.fetchWord_waiting (v : Word) (s : State) : (s.fetchWord v).path.waiting = s.path.waiting := by
  unfold State.fetchWord; (try dsimp only); (repeat' split) <;> (try simp)
@[simp] theorem State.anchorCommit_waiting (s : State) : s.anchorCommit.path.waiting = s.path.waiting := by
  unfold State.anchorCommit; (try dsimp only); (repeat' split) <;> (try simp)
@[simp] theorem State.takeHeldMasks_waiting (held : Vector (Option Word) 4) (l : List Division) (s : State) : (State.takeHeldMasks held l s).path.waiting = s.path.waiting := by
  induction l generalizing s with
  | nil => rfl
  | cons x t ih => simp only [State.takeHeldMasks]; (repeat' split) <;> simp [ih]
@[simp] theorem State.enterConfigured_waiting (s : State) : s.enterConfigured.path.waiting = s.path.waiting := by
  unfold State.enterConfigured; (try dsimp only); (repeat' split) <;> (try simp)
@[simp] theorem State.sweepIfStopping_waiting (s : State) : s.sweepIfStopping.path.waiting = s.path.waiting := by
  unfold State.sweepIfStopping; (try dsimp only); (repeat' split) <;> (try simp)
@[simp] theorem State.rejectAnchor_waiting (r : AnchorReason) (s : State) : (s.rejectAnchor r).path.waiting = s.path.waiting := by
  unfold State.rejectAnchor; (try dsimp only); (repeat' split) <;> (try simp)
@[simp] theorem State.stopMaskWrite_waiting (d : Division) (v : Word) (s : State) : (s.stopMaskWrite d v).path.waiting = s.path.waiting := by
  unfold State.stopMaskWrite; (try dsimp only); (repeat' split) <;> (try simp)
@[simp] theorem State.pickupHeldWrite_waiting (k : PickupNo) (s : State) : (s.pickupHeldWrite k).path.waiting = s.path.waiting := by
  unfold State.pickupHeldWrite; (try dsimp only); (repeat' split) <;> (try simp)
@[simp] theorem State.pickupCommitWrite_waiting (k : PickupNo) (v : Word) (s : State) : (s.pickupCommitWrite k v).path.waiting = s.path.waiting := by
  unfold State.pickupCommitWrite; (try dsimp only); (repeat' split) <;> (try simp)
@[simp] theorem State.askClear_waiting (s : State) : s.askClear.path.waiting = s.path.waiting := by
  unfold State.askClear; (try dsimp only); (repeat' split) <;> (try simp)
@[simp] theorem State.leaveWinding_waiting (s : State) : s.leaveWinding.path.waiting = s.path.waiting := by
  unfold State.leaveWinding; (try dsimp only); (repeat' split) <;> (try simp)
@[simp] theorem State.takeClearAnswer_waiting (s : State) : s.takeClearAnswer.path.waiting = s.path.waiting := by
  unfold State.takeClearAnswer; (try dsimp only); (repeat' split) <;> (try simp)
@[simp] theorem State.reportReady_waiting (s : State) : s.reportReady.path.waiting = s.path.waiting := by
  unfold State.reportReady; (try dsimp only); (repeat' split) <;> (try simp)
@[simp] theorem State.runAfterLimit_waiting (s : State) : s.runAfterLimit.path.waiting = s.path.waiting := rfl
@[simp] theorem State.runAfterSettle_waiting (s : State) : s.runAfterSettle.path.waiting = s.path.waiting := by
  unfold State.runAfterSettle; (try dsimp only); (repeat' split) <;> (try simp)
@[simp] theorem State.runAfterDrop_waiting (s : State) : s.runAfterDrop.path.waiting = s.path.waiting := by
  unfold State.runAfterDrop; (try dsimp only); (repeat' split) <;> (try simp)
@[simp] theorem State.runAfterCancel_waiting (s : State) : s.runAfterCancel.path.waiting = s.path.waiting := by
  unfold State.runAfterCancel; (try dsimp only); (repeat' split) <;> (try simp)
@[simp] theorem State.runFrame_waiting (c w : Bool) (s : State) : (s.runFrame c w).path.waiting = s.path.waiting := by
  unfold State.runFrame; (try dsimp only); (repeat' split) <;> (try simp)
@[simp] theorem State.cancelEffect_waiting (s : State) : s.cancelEffect.path.waiting = s.path.waiting := by
  unfold State.cancelEffect; (try dsimp only); (repeat' split) <;> (try simp)
@[simp] theorem State.runCancelAssert_waiting (s : State) : s.runCancelAssert.path.waiting = s.path.waiting := by
  unfold State.runCancelAssert; (try dsimp only); (repeat' split) <;> (try simp)
@[simp] theorem State.runCancelRelease_waiting (s : State) : s.runCancelRelease.path.waiting = s.path.waiting := by
  unfold State.runCancelRelease; (try dsimp only); (repeat' split) <;> (try simp)
@[simp] theorem State.haltByDrop_waiting (s : State) : s.haltByDrop.path.waiting = s.path.waiting := by
  unfold State.haltByDrop; (try dsimp only); (repeat' split) <;> (try simp)
@[simp] theorem State.runDrop_waiting (s : State) : s.runDrop.path.waiting = s.path.waiting := by
  unfold State.runDrop; (try dsimp only); (repeat' split) <;> (try simp)
@[simp] theorem State.runConfirm_waiting (s : State) : s.runConfirm.path.waiting = s.path.waiting := by
  unfold State.runConfirm; (try dsimp only); (repeat' split) <;> (try simp)
@[simp] theorem State.runLimit_waiting (s : State) : s.runLimit.path.waiting = s.path.waiting := by
  unfold State.runLimit; (try dsimp only); (repeat' split) <;> (try simp)
@[simp] theorem State.runHold_waiting (s : State) : s.runHold.path.waiting = s.path.waiting := by
  unfold State.runHold; (try dsimp only); (repeat' split) <;> (try simp)
@[simp] theorem State.runStage_waiting (s : State) : s.runStage.path.waiting = s.path.waiting := by
  unfold State.runStage; (try dsimp only); (repeat' split) <;> (try simp)
@[simp] theorem State.finishRun_waiting (s : State) : s.finishRun.path.waiting = s.path.waiting := by
  unfold State.finishRun; (try dsimp only); (repeat' split) <;> (try simp)
@[simp] theorem State.dropBelow_waiting (n : Nat) (s : State) : (s.dropBelow n).path.waiting = s.path.waiting := by
  unfold State.dropBelow; (try dsimp only); (repeat' split) <;> (try simp)
@[simp] theorem State.acceptStart_waiting (s : State) : s.acceptStart.path.waiting = s.path.waiting := by
  unfold State.acceptStart; (try dsimp only); (repeat' split) <;> (try simp)
@[simp] theorem State.takeStart_waiting (i : Installed) (s : State) : (s.takeStart i).path.waiting = s.path.waiting := by
  unfold State.takeStart; (try dsimp only); (repeat' split) <;> (try simp)
@[simp] theorem State.takeStop_waiting (s : State) : s.takeStop.path.waiting = s.path.waiting := by
  unfold State.takeStop; (try dsimp only); (repeat' split) <;> (try simp)
@[simp] theorem State.takeResume_waiting (s : State) : s.takeResume.path.waiting = s.path.waiting := by
  unfold State.takeResume; (try dsimp only); (repeat' split) <;> (try simp)
@[simp] theorem State.command_waiting (v : Word) (s : State) : (s.command v).path.waiting = s.path.waiting := by
  unfold State.command; (try dsimp only); (repeat' split) <;> (try simp)
@[simp] theorem State.consumerWrite_waiting (v : Word) (s : State) : (s.consumerWrite v).path.waiting = s.path.waiting := by
  unfold State.consumerWrite; (try dsimp only); (repeat' split) <;> (try simp)
@[simp] theorem State.runBlockCopy_waiting (x : RunWord) (v : Word) (s : State) : (s.runBlockCopy x v).path.waiting = s.path.waiting := rfl
@[simp] theorem State.anchorSnoop_waiting (n : Nat) (v : Word) (s : State) : (s.anchorSnoop n v).path.waiting = s.path.waiting := by
  unfold State.anchorSnoop; (try dsimp only); (repeat' split) <;> (try simp)
@[simp] theorem State.snoop_waiting (a : Nat) (v : Word) (s : State) : (s.snoop a v).path.waiting = s.path.waiting := by
  unfold State.snoop; (try dsimp only); (repeat' split) <;> (try simp)
@[simp] theorem State.finishChestWrite_waiting (b : Bool) (s : State) : (s.finishChestWrite b).path.waiting = s.path.waiting := by
  unfold State.finishChestWrite; (try dsimp only); (repeat' split) <;> (try simp)
@[simp] theorem State.finishReportWrite_waiting (s : State) : s.finishReportWrite.path.waiting = s.path.waiting := by
  unfold State.finishReportWrite; (try dsimp only); (repeat' split) <;> (try simp)
@[simp] theorem State.markDue_waiting (s : State) : s.markDue.path.waiting = s.path.waiting := by
  unfold State.markDue; (try dsimp only); (repeat' split) <;> (try simp)
@[simp] theorem State.closeWindow_waiting (s : State) : s.closeWindow.path.waiting = s.path.waiting := by
  unfold State.closeWindow; (try dsimp only); (repeat' split) <;> (try simp)
@[simp] theorem State.expireWait_waiting (s : State) : s.expireWait.path.waiting = s.path.waiting := by
  unfold State.expireWait; (try dsimp only); (repeat' split) <;> (try simp)
@[simp] theorem State.finishFrame_waiting (s : State) : s.finishFrame.path.waiting = s.path.waiting := by
  unfold State.finishFrame; (try dsimp only); (repeat' split) <;> (try simp)
@[simp] theorem State.frameRefresh_waiting (s : State) : s.frameRefresh.path.waiting = s.path.waiting := by
  unfold State.frameRefresh; (try dsimp only); (repeat' split) <;> (try simp)
@[simp] theorem State.trackerFrame_waiting (s : State) : s.trackerFrame.path.waiting = s.path.waiting := by
  unfold State.trackerFrame; (try dsimp only); (repeat' split) <;> (try simp)
@[simp] theorem State.expireCues_waiting (x y n : Nat) (s : State) : (State.expireCues x y n s).path.waiting = s.path.waiting := by
  induction n generalizing s with
  | zero => rfl
  | succ n ih => simp only [State.expireCues]; (repeat' split) <;> simp [ih]
@[simp] theorem State.matcherFrame_waiting (s : State) : s.matcherFrame.path.waiting = s.path.waiting := by
  unfold State.matcherFrame; (try dsimp only); (repeat' split) <;> (try simp)
@[simp] theorem State.frameBlocks_waiting (c w : Bool) (o : FrameOrder) (s : State) : (s.frameBlocks c w o).path.waiting = s.path.waiting := by
  unfold State.frameBlocks; (try dsimp only); (repeat' split) <;> (try simp)
@[simp] theorem State.releaseReport_waiting (i : Installed) (e : HoldEntry) (s : State) : (s.releaseReport i e).path.waiting = s.path.waiting := by
  unfold State.releaseReport; (try dsimp only); (repeat' split) <;> (try simp)
@[simp] theorem State.noteAction_waiting (i : Installed) (e : HoldEntry) (b : Bool) (s : State) : (s.noteAction i e b).path.waiting = s.path.waiting := by
  unfold State.noteAction; (try dsimp only); (repeat' split) <;> (try simp)
@[simp] theorem State.registration_waiting (e : HoldEntry) (s : State) : (s.registration e).path.waiting = s.path.waiting := by
  unfold State.registration; (try dsimp only); (repeat' split) <;> (try simp)
@[simp] theorem State.dispatch_waiting (i : Installed) (e : HoldEntry) (s : State) : (s.dispatch i e).path.waiting = s.path.waiting := by
  unfold State.dispatch; (try dsimp only); (repeat' split) <;> (try simp)
@[simp] theorem State.loaderTakesSweepEnd_waiting (s : State) : s.loaderTakesSweepEnd.path.waiting = s.path.waiting := by
  unfold State.loaderTakesSweepEnd; (try dsimp only); (repeat' split) <;> (try simp)
@[simp] theorem State.trackerTakesSweepEnd_waiting (s : State) : s.trackerTakesSweepEnd.path.waiting = s.path.waiting := by
  unfold State.trackerTakesSweepEnd; (try dsimp only); (repeat' split) <;> (try simp)
@[simp] theorem State.takeSweepEnd_waiting (w : Sweep) (s : State) : (s.takeSweepEnd w).path.waiting = s.path.waiting := by
  unfold State.takeSweepEnd; (try dsimp only); (repeat' split) <;> (try simp)
@[simp] theorem State.endOff_waiting (s : State) : (s.endOff).path.waiting = s.path.waiting := by
  unfold State.endOff; (try dsimp only); (repeat' split) <;> (try simp)
@[simp] theorem State.beginRefresh_waiting (i : Installed) (s : State) : (s.beginRefresh i).path.waiting = s.path.waiting := rfl

end Sys2Proof.Machine
end

