-- ==== Sys2Proof/Tests/Slice0.lean ====
section
/-! SUPPORT. Tests of the model: ill-formed commands that the check refuses, one small run of each row with values
from the spec, and for every obligation with hypotheses a state and operands that meet them (`witness_…`). -/

set_option maxRecDepth 100000

namespace Sys2Proof.Tests

open Sys2Proof Sys2Proof.Machine

/-! ### WellFormed -/

theorem test_wf_scoreCommit_kind : (Instr.scoreCommit 4119 0x0002).wellFormed = false := by decide
theorem test_wf_scoreCommit_anchor : (Instr.scoreCommit 77 11010).wellFormed = false := by decide
theorem test_wf_emptyCommit_kind : (Instr.emptyCommit 4119 11010).wellFormed = false := by decide
theorem test_wf_scoreEdit_anchor : (Instr.scoreEdit 40 1).wellFormed = false := by decide
theorem test_wf_chestWrite_anchor : (Instr.chestWrite 0 1).wellFormed = false := by decide
theorem test_wf_chestRead_anchor : (Instr.chestRead 77).wellFormed = false := by decide
theorem test_wf_logStatusWrite_anchor : (Instr.logStatusWrite 12 1).wellFormed = false := by decide
theorem test_wf_otherWrite_live : (Instr.otherWrite 26 1).wellFormed = false := by decide
theorem test_wf_otherWrite_run : (Instr.otherWrite 75 1).wellFormed = false := by decide
theorem test_wf_commandUnknown_known : (Instr.commandUnknown 3).wellFormed = false := by decide
theorem test_wf_accepts : (Instr.scoreCommit 4119 11010).wellFormed = true
    ∧ (Instr.otherWrite 24 1).wellFormed = true ∧ (Instr.commandUnknown 4).wellFormed = true := by decide

/-! ### The step's interface -/

theorem test_no_row_gives_bits : decodeTableWord 16 11010 = none := rfl
theorem test_withFetchWord_unchanged : State.reset.withFetchWord 16 11010 = State.reset := rfl

/-! ### Small states -/

/-- The state a command answers. -/
def after (c : Instr) (s : State) : State :=
  match exec c s with
  | .next t => t
  | _ => s

/-- A region map and settings (the score area of 1.12, the settings of 6.9). -/
def map : Installed :=
  { scoreBase := 4096, slotCount := 256, chestBase := 8192, logBase := 1024, logCount := 16,
    statusBase := 2048, tmin := 1280, tmax := 2880, phaseGain := 8, rateGain := 32, maxTempoStep := 48,
    lossLimit := 3, lateTolerance := 200, mergeSpan := 10, fusionThreshold := 60, repeatGap := 40,
    waitLimit := 6000, windSettle := 200, windLimit := 5000, windHold := 30, releaseHistory := true }

/-- The same without the release-history option. -/
def mapPlain : Installed := { map with releaseHistory := false, windHold := 0 }

/-- A division of 3.11's kind: enabled, no transposition, no couplers. -/
def plainDivision (mask : Word) (reverse : Bool) : DivisionSettings :=
  { enabled := true, reverse := reverse, transpose := 0, couplerA := none, couplerB := none,
    stopMask := mask }

/-- A configured part in IDLE, its first frame begun; division 1 is of reverse polarity. -/
def idle : State :=
  { State.reset with
    loader := { Loader.reset with config := .configured, installed := some map },
    link := { Link.reset with frame := 10000, begun := true },
    chest := { Chest.reset with
      divisions := #v[plainDivision 0x0003 false, plainDivision 0x0005 true,
        plainDivision 0x0001 false, DivisionSettings.reset] } }

/-- The part in a tracker state that every block knows. -/
def inState (st : TrackerState) (s : State) : State :=
  { s with
    tracker := { s.tracker with state := st },
    loader := { s.loader with announced := st },
    matcher := { s.matcher with announced := st },
    run := { s.run with announced := st, windReq := true, wind := .confirmed },
    fuser := { s.fuser with running := st.running } }

/-- The part in FOLLOWING at a position in su. -/
def following (position : Nat) : State :=
  let s := inState .following idle
  { s with tracker := { s.tracker with position := position * 65536, tempo := 1920 } }

/-- The installed map replaced. -/
def withMap (i : Installed) (s : State) : State := { s with loader := { s.loader with installed := some i } }

/-- An access of the part put on the port. -/
def onPort (a : PortAccess) (s : State) : State := { s with path := { s.path with port := some a } }

/-- A note entry of the hold queue. -/
def note (slot : Nat) (kind : HoldKind) (key stamp : Nat) : HoldEntry :=
  { slot := slot, kind := kind, division := 0, key := key, stamp := stamp, payload := 0, order := slot }

/-- A part whose hold queue holds these entries, their slots HELD_NOTE. -/
def holding (l : List HoldEntry) (s : State) : State :=
  { s with
    release := { s.release with hold := l },
    admission := { s.admission with
      slots := l.foldl (fun m e => Table.set .free m e.slot .heldNote) s.admission.slots,
      nextOrder := 100 } }

/-- A part whose cue list holds these cues, their slots HELD_CUE, the tracker knowing the wait stamp. -/
def listening (l : List CueEntry) (s : State) : State :=
  { s with
    matcher := { s.matcher with cues := l },
    tracker := { s.tracker with waitStamp := leastWait l },
    admission := { s.admission with
      slots := l.foldl (fun m e => Table.set .free m e.slot .heldCue) s.admission.slots,
      nextOrder := 100 } }

/-- A plain cue with W = 24. -/
def cue (slot stamp : Nat) (wait : Bool) : CueEntry :=
  { slot := slot, stamp := stamp, w := 24, wait := wait, anchor := false, order := slot }

/-- The run controller at a stage of its frame event. -/
def atStage (st : RunStage) (s : State) : State := { s with run := { s.run with stage := st } }

/-- A part whose sweep is w and whose FIFO is q. -/
def sweeping (w : Sweep) (q : List FifoEntry) (s : State) : State :=
  { s with chest := { s.chest with sweep := some w, fifo := q } }

/-- A FIFO entry. -/
def fifoEntry (address : Nat) (on : Bool) : FifoEntry :=
  { address := address, stored := 3, on := on, sweep := false }

/-- Pickup 2 in LISTENING with this last code and candidate. -/
def heard (last : Nat) (c : Option Candidate) : Pickup :=
  { Pickup.reset with
    entry := { Pickup.reset.entry with enabled := true, weight := 4, delay := 6 },
    state := .listening, lastCode := some last, lastLiveness := some 0, candidate := c }

/-- A part whose pickup 2 is p. -/
def withPickup (p : Pickup) (s : State) : State :=
  { s with link := { s.link with pickups := s.link.pickups.set 2 p } }

/-- An admission list with slot 5 fetching its last word. -/
def fetching (w0 w1 w2 commit : Word) (s : State) : State :=
  { s with
    mem := Memory.write s.mem 4118 w2,
    path := { s.path with port := some (.fetchRead 4118 false) },
    admission := { s.admission with
      list := [{ slot := 5, commit := commit }], fetch := some [w0, w1],
      slots := Table.set .free s.admission.slots 5 .fetching } }

/-! ### RESET and the anchor block -/

theorem test_reset : (after .reset idle).path.port = some (.anchorRead 0 false)
    ∧ (after .reset idle).loader.config = .loading ∧ (after .reset idle).loader.installed = none := by
  decide
theorem test_anchorCommit : (after (.anchorCommit 9) idle).loader.config = .loading
    ∧ (after (.anchorCommit 9) idle).path.port = some (.anchorRead 0 false)
    ∧ (after (.anchorCommit 9) (following 10)).loader.config = .deferred := by decide
theorem test_anchorReadDone :
    (after .anchorReadDone (after .reset idle)).loader.load = some [0]
      ∧ (after .anchorReadDone (after .reset idle)).path.port = some (.anchorRead 1 false) := by decide
theorem test_anchor_signature : anchorError (List.replicate 78 0) = some .signature := by decide
theorem test_anchor_check : anchorError (0x7A31 :: List.replicate 77 0) = some (.check 0x7A31) := by decide

/-! ### The score area: the example of 1.12 -/

theorem test_checkValue : (FetchedRecord.mk 960 0 0 11008).checkValue = 2
    ∧ commitKind 11010 = .noteOn ∧ commitDivision 11010 = 1 ∧ commitKey 11010 = 24 := by decide
theorem test_scoreCommit : (after (.scoreCommit 4119 11010) idle).admission.list = [{ slot := 5, commit := 11010 }]
    ∧ (after (.scoreCommit 4119 11010) idle).slot 5 = .fetching
    ∧ (after (.scoreCommit 4119 11010) idle).path.port = some (.fetchRead 4116 false) := by decide
theorem test_scoreEdit : (after (.scoreEdit 4118 7) (holding [note 5 .noteOn 24 960] idle)).slot 5 = .free
    ∧ (after (.scoreEdit 4118 7) (holding [note 5 .noteOn 24 960] idle)).release.hold = []
    ∧ (after (.scoreEdit 4118 7) idle).mem.read 4118 = 7 := by decide
theorem test_emptyCommit :
    (after (.emptyCommit 4119 0) (holding [note 5 .noteOn 24 960] idle)).raised.map (fun r => r.record.report)
      = [.withdrawn 5 .noteOn] := by decide
theorem test_fetchReadDone_admits : (after .fetchReadDone (fetching 960 0 0 11010 idle)).slot 5 = .heldNote
    ∧ (after .fetchReadDone (fetching 960 0 0 11010 idle)).release.hold
      = [{ slot := 5, kind := .noteOn, division := 1, key := 24, stamp := 960, payload := 0, order := 0 }] := by
  decide
theorem test_fetchReadDone_check :
    (after .fetchReadDone (fetching 961 0 0 11010 idle)).raised.map (fun r => r.record.report)
      = [.formError 5 .check] := by decide

/-! ### Processor accesses -/

theorem test_chestWrite : (after (.chestWrite 8256 0x0005) idle).mem.read 8256 = 0xFFFA
    ∧ (after (.chestWrite 8256 5) (following 0)).mem.read 8256 = 0
    ∧ (after (.chestWrite 8256 5) (following 0)).chest.protectSeen = true := by decide
theorem test_chestRead : (after (.chestRead 8256) { idle with mem := [(8256, 0xFFFA)] }).path.readData = 5 := by decide
theorem test_logStatusWrite : (after (.logStatusWrite 1024 7) idle).mem = []
    ∧ (after (.logStatusWrite 1024 7) idle).raised.map (fun r => r.record.report)
      = [.protectDrop 1024 7 .log] := by decide
theorem test_stopMaskWrite : ((after (.stopMaskWrite 0 0x0021) idle).chest.division 0).stopMask = 0x21
    ∧ (after (.stopMaskWrite 0 0x0021) idle).chest.sweep = none
    ∧ (after (.stopMaskWrite 0 0x0021) (following 0)).chest.sweeping .revoice = true := by decide
theorem test_pickupCommit : (after (.pickupCommit 2 0x0102) idle).loader.pickupList
      = [{ pickup := 2, carried := 0x0102 }]
    ∧ (after (.pickupCommit 2 0x0102) idle).path.port = some (.pickupRead 42 false) := by decide
theorem test_runBlockWrite : (after (.runBlockWrite .stampHigh 1) idle).run.startStamp = 65536 := by decide
theorem test_consumerIndexWrite : (after (.consumerIndexWrite 3) idle).report.attn = true
    ∧ (after (.consumerIndexWrite 16) idle).report.consumer = 0 := by decide
theorem test_otherWrite : (after (.otherWrite 11 400) idle).mem.read 11 = 400
    ∧ (after (.otherWrite 100000 7) idle).mem.read 100000 = 7 := by decide
theorem test_access_waits : (after .start (onPort (.chestWrite (fifoEntry 8192 true) true) idle)).path.ready = false
    ∧ (after .start (onPort (.chestWrite (fifoEntry 8192 true) true) idle)).path.yieldCount = 1 := by decide

/-! ### Commands -/

/-- A part whose run block asks for a start at stamp 9600 and tempo 1800 (7.10). -/
def ready : State := { idle with run := { idle.run with stampLow := 9600, nominal := 1800 } }

theorem test_start : (after .start ready).tracker.state = .winding
    ∧ (after .start ready).tracker.position = 9600 * 65536 ∧ (after .start ready).run.windReq = true
    ∧ (after .start ready).chest.sweeping .revoice = true := by decide
/-- The two numbers come with the run controller's report, behind the STATE of the START (R138). -/
theorem test_start_numbers :
    (after .start ready).run.startCounts = some (0, 0)
      ∧ after (.reportTaken .run) (after .start ready) = after .start ready
      ∧ (after (.reportTaken .run) (after (.reportTaken .tracker) (after .start ready))).report.queue.map
          (fun r => r.report)
        = [.state .idle .winding .start, .command (.written 1) .accepted none .idle 0 0] := by decide
theorem test_start_refused : (after .start idle).raised.map (fun r => r.record.report)
      = [.command (.written 1) .refused (some .tempo) .idle 0 0] := by decide
theorem test_stop : (after .stop (following 5)).tracker.state = .stopping
    ∧ (after .stop (following 5)).chest.sweeping .off = true := by decide
theorem test_resume : (after .resume (inState .halted idle)).tracker.state = .winding
    ∧ (after .resume (inState .halted idle)).tracker.resume = true := by decide
theorem test_commandNone : (after .commandNone idle).raised = []
    ∧ (after .commandNone { idle with mem := [(75, 9)] }).mem = [] := by decide
theorem test_commandUnknown : (after (.commandUnknown 4) idle).raised.map (fun r => r.record.report)
      = [.command (.written 4) .unknown none .idle 0 0] := by decide

/-! ### The port -/

theorem test_pickupReadDone : (after .pickupReadDone
      (onPort (.pickupRead 42 false)
        { idle with loader := { idle.loader with pickupList := [{ pickup := 2, carried := 0 }] } })).loader.pickupGot
      = [0] := by decide
theorem test_chestWriteDone :
    (after .chestWriteDone (onPort (.chestWrite (fifoEntry 8192 true) true)
      { idle with chest := { idle.chest with fifo := [fifoEntry 8192 true] } })).mem = [(8192, 3)] := by decide
theorem test_portAccessDone :
    (after .portAccessDone (onPort (.procRead 8256 true) { idle with mem := [(8256, 0xFFFA)] })).path.readData = 5 := by
  decide
theorem test_writeBackGrant : (after .writeBackGrant
      { idle with path := { idle.path with writeBacks := [{ division := 2, mask := 7 }] } }).path.port
      = some (.writeBack 32 7) := by decide
theorem test_reportWordDone : (after .reportWordDone (onPort (.reportWrite 1031 9 false)
      { idle with report := { idle.report with
          task := some { kind := .record, words := [(1031, 9)] } } })).report.producer = 1
    ∧ (after .reportWordDone (onPort (.reportWrite 1031 9 false)
      { idle with report := { idle.report with
          task := some { kind := .record, words := [(1031, 9)] } } })).report.attn = true := by decide

/-! ### Frames -/

theorem test_frameStart : (after (.frameStart false true .tmr) (following 10)).link.frame = 10001
    ∧ (after (.frameStart false true .tmr) (following 10)).tracker.position = 10 * 65536 + 31457
    ∧ (after (.frameStart false true .tmr) (following 10)).tracker.remainder = 35 := by decide
theorem test_correction : (((following 1000).tracker.takeMessage map 0 (.correction (-24) false)).tracker.tempo,
    ((following 1000).tracker.takeMessage map 0 (.correction (-24) false)).tracker.lag) = (1908, 12 * 65536) := by
  decide
/-- Key 24 of division d, held once and pending-on. -/
def pendingKey (d : Division) (due : Bool) (last : Frame) : State :=
  { idle with
    chest := idle.chest.setSound d 24
      { holders := 1, pendingOn := true, due := due, lastOff := some last } }

theorem test_repeatGapDue :
    ((after .repeatGapDue (pendingKey 0 false 9960)).chest.sound 0 24).due = true
      ∧ ((after .repeatGapDue (pendingKey 0 false 9961)).chest.sound 0 24).due = false := by decide
theorem test_pendingOnWrite : (after .pendingOnWrite (pendingKey 1 true 9960)).chest.fifo
      = [{ address := 8280, stored := 0xFFFA, on := true, sweep := false }] := by decide

/-- An open window of one contributor, its closing frame behind. -/
def openWindow : Window :=
  { opening := 9980, closing := 9990, sum := 170,
    contributors :=
      [{ pickup := 2, strength := 9, contribution := 170, compensated := 9974, arrival := 9980 }] }

/-- A part with that window. -/
def overdue (s : State) : State := { s with fuser := { s.fuser with window := some openWindow } }

theorem test_windowClose :
    (after .windowClose (overdue (following 1000))).raised.map (fun r => r.record.report)
      = [.stray 9974 170 [2] 0] := by decide

/-- The part in WAITING on the wait stamp 9600, its wait timer about to expire. -/
def waiting : State :=
  let s := listening [cue 7 9600 true] (inState .waiting idle)
  { s with
    matcher := { s.matcher with expiryDue := true },
    tracker := { s.tracker with position := 9600 * 65536 } }

/-- The fused onset carries each contributor with its contribution (R93). -/
theorem test_fused : openWindow.fused 60
    = some { frame := 9974, strength := 170, contributors := [(2, 170)] } := by decide

theorem test_waitExpiry : (after .waitExpiry waiting).tracker.state = .leading
    ∧ (after .waitExpiry waiting).raised.map (fun r => r.record.report)
      = [.waitExpired 7 9600, .state .waiting .leading .waitExpired] := by decide

/-- The part in WINDING, asking the cue matcher to clear stale WAIT cues. -/
def clearing : State :=
  let s := holding [note 5 .noteOn 24 960] (inState .winding idle)
  { s with
    matcher := { s.matcher with clearAnswer := true },
    tracker := { s.tracker with awaitingClear := true } }

theorem test_staleWaitClearAnswer : (after .staleWaitClearAnswer clearing).tracker.state = .leading := by decide

/-- Code 9, no ack, liveness 1, parity 0: bits 1001 0 01 0 in bit time order (R181). -/
theorem test_slot_fields : slotGood 0x92 = true ∧ slotCode 0x92 = 9 ∧ slotAck 0x92 = false
    ∧ slotLiveness 0x92 = 1 := by decide

theorem test_slotEvent : ((after (.slotEvent 2 0) (withPickup (heard 0 none) idle)).link.pickups[2]).parityRun = 1
    ∧ ((after (.slotEvent 2 0) (withPickup (heard 0 none) idle)).link.pickups[2]).lastCode = none := by decide

/-- A pickup whose value has stood for 50 frames. -/
def late : Pickup :=
  { heard 0 none with
    state := .configuring,
    handshake := some { Handshake.atStart 2 with phase := .sending, frames := 49, timeoutDue := true } }

/-- LST slot 2 carries present, then the value, most significant bit first (R181). -/
theorem test_lst : ((List.finRange 96).map
      (withPickup { late with lst := { present := true, value := 0x41 } } idle).link.lstLevel).drop 16
      = [true, true, false, false, false, false, false, true] ++ List.replicate 72 false := by decide

theorem test_timeout : ((after (.timeout 2) (withPickup late idle)).link.pickups[2]).state = .silent := by decide

/-! ### The run controller -/

theorem test_cancelAssert : (after .cancelAssert (atStage .cancelAssert idle)).tracker.state = .stopping
    ∧ (after .cancelAssert (atStage .cancelAssert idle)).run.cancelHeld = true := by decide
theorem test_cancelRelease : (after .cancelRelease
      (atStage .cancelRelease { idle with run := { idle.run with cancelHeld := true } })).run.cancelHeld = false := by
  decide

/-- The part in WINDING with a settle that has just ended, holding one entry. -/
def settled : State :=
  let s := holding [note 5 .noteOn 24 960] (inState .winding idle)
  atStage .confirm { s with run := { s.run with wind := .settling, settle := 200, limitRunning := true } }

theorem test_windConfirmed : (after .windConfirmed settled).tracker.state = .leading
    ∧ (after .windConfirmed settled).raised.map (fun r => r.record.report)
      = [.wind .ready, .state .winding .leading .windReady] := by decide
/-- The counter rises at the frame start of the ready report too (R147; the 4402 frames of 8.11). -/
theorem test_limit_at_ready : (after .windConfirmed
      { settled with run := { settled.run with limit := 4401 } }).run.limit = 4402 := by decide
theorem test_windLimit : (after .windLimit (atStage .limit (inState .winding idle))).tracker.state = .halted := by decide
theorem test_windDrop : (after .windDrop (atStage .drop (following 10))).tracker.state = .halted
    ∧ (after .windDrop (atStage .drop (following 10))).chest.sweeping .mute = true := by decide
theorem test_holdExpiry : (after .holdExpiry (atStage .hold (inState .idle idle))).run.windReq = false := by decide

/-! ### Release and the sweeps -/

theorem test_release : (after .release (holding [note 5 .noteOn 24 960] (following 960))).chest.fifo
      = [{ address := 8216, stored := 3, on := true, sweep := false }]
    ∧ (after .release (holding [note 5 .noteOn 24 960] (following 959))).chest.fifo = [] := by decide
/-- A part in FOLLOWING at 960 su with a due note, a MUTE sweep and n entries in the FIFO, and the wait that its
engine has settled into. -/
def crowded (n : Nat) (waits : Option Nat) : State :=
  { sweeping { kind := .mute, set := Divisions.all, division := 1, key := 60, passed := false }
      (List.replicate n (fifoEntry 8192 false)) (holding [note 5 .noteOn 24 960] (following 960)) with
    spaceWait := waits }

/-- Once the engine waits, the sweep is held until the release is made, also at 13 entries (R26, R46). -/
theorem test_release_before_sweep :
    (crowded 14 none).waitsFor = some 5 ∧ after .sweepWrite (crowded 13 (some 5)) = crowded 13 (some 5)
      ∧ (after .sweepWrite (crowded 13 none)).chest.fifo.length = 14
      ∧ (after .release (crowded 13 (some 5))).spaceWait = none
      ∧ (after .release (crowded 13 (some 5))).release.hold = [] := by decide
theorem test_sweepWrite : (after .sweepWrite
      (sweeping { kind := .off, set := Divisions.all, division := 1, key := 60, passed := false } [] idle)).chest.sweep
      = some { kind := .off, set := Divisions.all, division := 2, key := 0, passed := false } := by decide
theorem test_sweepEnd : (after .sweepEnd
      (sweeping { kind := .off, set := Divisions.all, division := 3, key := 31, passed := true } []
        (inState .stopping idle))).tracker.state = .idle := by decide

/-! ### The report writer -/

/-- A raised report. -/
def raisedMark : Raised :=
  { block := .release, record := { report := .mark 5 2, frame := 10000, position := 960 } }

theorem test_reportTaken : (after (.reportTaken .release) { idle with raised := [raisedMark] }).report.queue
      = [raisedMark.record] := by decide
/-- MATCH stands ahead of the tracker's STATE for it (R108); an expired MISS need not (R165). -/
theorem test_mustPrecede :
    (Report.matched 4 0 9 [2]).mustPrecede (.state .leading .following .capture) = true
      ∧ (Report.miss 3 0 0 false false true false).mustPrecede (.rangeEnd 0 0) = true
      ∧ (Report.miss 3 0 0 false false false true).mustPrecede (.state .following .coasting .loss) = false
      ∧ (Report.waitExpired 7 0).mustPrecede (.state .waiting .leading .waitExpired) = false := by decide
theorem test_record_words : raisedMark.record.words = [0x00A6, 2, 0, 10000, 0, 960, 0, 0] := by decide
theorem test_recordWriteBegin : (after .recordWriteBegin
      { idle with report := { idle.report with queue := [raisedMark.record] } }).path.port
      = some (.reportWrite 1024 0x00A6 false) := by decide
/-- A removed entry counts while its write is on the port (R172). -/
theorem test_removed_write_counts :
    (after .stop { following 5 with
      chest := { idle.chest with fifo := [fifoEntry 8192 true] },
      path := { idle.path with
        port := some (.chestWrite (fifoEntry 8192 true) true) } }).path.waiting = some (.write 75 2)
    ∧ (onPort (.chestWrite (fifoEntry 8192 true) false) idle).fifoCount = 1 := by decide
theorem test_refreshBegin : (after .refreshBegin
      { idle with report := { idle.report with refreshDue := true } }).report.generation = 1 := by decide

/-! ### Witnesses: the hypotheses of each obligation, met together -/

theorem idle_portFree : idle.portFree := ⟨rfl, rfl⟩
theorem ready_portFree : ready.portFree := ⟨rfl, rfl⟩

theorem witness_StepTakesFrontCommand : State.reset.pending = [] := rfl

/-- A part with one command waiting. -/
def queued : State := { idle with pending := [.start] }

theorem witness_StepKeepsTablesCanonical : queued.tablesCanonical = true ∧ ∃ t, step queued = .next t :=
  ⟨by decide, _, rfl⟩
/-- A part with one command waiting and slot 5 held as a note. -/
def queuedNote : State := holding [note 5 .noteOn 24 960] queued

theorem queuedNote_slotsNamed : queuedNote.slotsNamed := by
  refine ⟨fun n => ?_, by decide⟩
  by_cases h : n = 5
  · subst h; refine ⟨by decide, by decide, by decide, ?_⟩
    exact ⟨fun x => absurd x (by decide), fun x => absurd rfl x.1⟩
  · have : queuedNote.slot n = .free := by
      change Table.get SlotState.free [(5, SlotState.heldNote)] n = .free
      simp [Table.get, Ne.symm h]
    refine ⟨?_, ?_, ?_, ?_⟩ <;> rw [this] <;>
      simp [queuedNote, holding, note, queued, idle, State.reset, Admission.reset, Matcher.reset, Ne.symm h]

theorem witness_StepKeepsCapacities :
    queuedNote.withinCapacity = true ∧ queuedNote.listsDistinct = true ∧ queuedNote.tablesCanonical = true
      ∧ queuedNote.slotsDistinct = true ∧ queuedNote.slotsNamed ∧ queuedNote.holdersLegal = true
      ∧ queuedNote.fifoAccounted = true ∧ ∃ t, step queuedNote = .next t :=
  ⟨by decide, by decide, by decide, by decide, queuedNote_slotsNamed, by decide, by decide, _, rfl⟩
theorem witness_StepKeepsCollectionsOrdered :
    (holding [note 5 .noteOn 24 960, note 6 .noteOn 24 960] queued).collectionsOrdered = true
      ∧ ∃ t, step (holding [note 5 .noteOn 24 960, note 6 .noteOn 24 960] queued) = .next t :=
  ⟨by decide, _, rfl⟩
theorem witness_StepKeepsTempoLegal : queued.tempoLegal = true ∧ ∃ t, step queued = .next t :=
  ⟨by decide, _, rfl⟩

/-- A part with one of its chest writes on the port. -/
def busy : State := onPort (.chestWrite (fifoEntry 8192 true) true) idle

theorem witness_AccessWaitsBehindThePart :
    accessOf (.otherWrite 100000 7) = some (.write 100000 7) ∧ busy.path.port ≠ none
      ∧ busy.path.processorBusy = false
      ∧ (∀ n v, ProcAccess.write 100000 7 = .write n v → busy.dropped n = none) := by
  refine ⟨rfl, by decide, rfl, ?_⟩
  intro n v h
  cases h
  decide

theorem witness_ProtectedWritesDropped :
    busy.path.processorBusy = false
      ∧ (regionOf busy.loader.installed (1024 : Addr).toNat = .log ∧ DropRegion.log = .log)
      ∧ (regionOf busy.loader.installed (2063 : Addr).toNat = .status ∧ DropRegion.status = .status)
      ∧ (following 5).path.processorBusy = false
      ∧ regionOf (following 5).loader.installed (8192 : Addr).toNat = .chest
      ∧ (following 5).tracker.state ≠ .idle := by decide
theorem witness_ProtectedWritesDropped_sweep :
    regionOf (after .stop (following 5)).loader.installed (8447 : Addr).toNat = .chest
      ∧ (after .stop (following 5)).chest.sweep ≠ none := by decide

theorem witness_ChestAccessesThroughPolarity :
    idle.portFree ∧ idle.loader.installed = some map
      ∧ regionOf (some map) (8256 : Addr).toNat = .chest ∧ idle.tracker.state = .idle
      ∧ idle.chest.sweep = none := ⟨⟨rfl, rfl⟩, by decide⟩

theorem witness_OtherWriteTaken :
    idle.portFree ∧ regionOf idle.loader.installed (262143 : Addr).toNat = .other
      ∧ (23 : Addr).toNat < 24 ∧ (24 ≤ (34 : Addr).toNat ∧ (34 : Addr).toNat < 36 ∧ (34 : Addr).toNat % 3 ≠ 2)
      ∧ (36 : Addr).toNat = 36 + 3 * (0 : PickupNo).val ∧ (70 : Addr).toNat = 37 + 3 * (11 : PickupNo).val :=
  ⟨⟨rfl, rfl⟩, by decide⟩

theorem witness_AnchorCommitTaken :
    State.reset.portFree ∧ State.reset.loader.config = .unconfigured
      ∧ (idle.portFree ∧ idle.loader.config = .configured ∧ idle.loader.announced = .idle)
      ∧ ((following 5).portFree ∧ (following 5).loader.config = .configured
        ∧ (following 5).loader.announced ≠ .idle ∧ (following 5).loader.installed ≠ none) :=
  ⟨⟨rfl, rfl⟩, rfl, ⟨⟨rfl, rfl⟩, by decide⟩, ⟨rfl, rfl⟩, by decide⟩
theorem witness_AnchorCommitTaken_deferred :
    ({ following 5 with loader := { (following 5).loader with config := .deferred } } : State).portFree
      ∧ ({ following 5 with loader := { (following 5).loader with config := .deferred } } : State).loader.config
        = .deferred := ⟨⟨rfl, rfl⟩, rfl⟩
theorem witness_AnchorCommitTaken_loading :
    ({ idle with loader := { idle.loader with config := .loading } } : State).portFree
      ∧ ({ idle with loader := { idle.loader with config := .loading } } : State).loader.config = .loading :=
  ⟨⟨rfl, rfl⟩, rfl⟩

theorem witness_NoneAndUnknownCommands :
    idle.portFree ∧ 4 ≤ (4 : Word).toNat ∧ 4 ≤ (65535 : Word).toNat ∧ idle.loader.installed ≠ none
      ∧ idle.run.stage = .done ∧ State.reset.portFree ∧ State.reset.loader.installed = none :=
  ⟨⟨rfl, rfl⟩, by decide, by decide, by decide, rfl, ⟨rfl, rfl⟩, rfl⟩

theorem witness_StartAccepted :
    ready.portFree ∧ ready.loader.installed = some map ∧ ready.run.stage = .done
      ∧ ready.tracker.state = .idle ∧ ready.run.announced = .idle ∧ ready.loader.config = .configured
      ∧ ready.run.cancelHeld = false
      ∧ 9600 = ready.run.stampHigh.toNat * 65536 + ready.run.stampLow.toNat ∧ 9600 ≤ 2147483647
      ∧ map.tmin ≤ ready.run.nominal.toNat ∧ ready.run.nominal.toNat ≤ map.tmax
      ∧ ready.run.startCounts = none
      ∧ ({ ready.run with startCounts := some (2, 1) } : RunControl).startCounts = some (2, 1) :=
  ⟨⟨rfl, rfl⟩, by decide⟩

/-- The first test of R137 that fails, with its reason. -/
def refusal (s : State) : Option CommandReason :=
  if s.run.announced ≠ .idle then some .state
  else if s.loader.config ≠ .configured then some .configuration
  else if s.run.cancelHeld then some .cancelHeld
  else if 2147483647 < s.run.stampHigh.toNat * 65536 + s.run.stampLow.toNat then some .stamp
  else if s.run.nominal.toNat < map.tmin ∨ map.tmax < s.run.nominal.toNat then some .tempo
  else none

theorem witness_CommandsRefused :
    idle.portFree ∧ idle.loader.installed = some map ∧ idle.run.stage = .done
      ∧ refusal idle = some .tempo ∧ refusal (following 5) = some .state
      ∧ refusal { ready with loader := { ready.loader with config := .deferred } } = some .configuration
      ∧ refusal { ready with run := { ready.run with cancelHeld := true } } = some .cancelHeld
      ∧ refusal { ready with run := { ready.run with stampHigh := 0x8000 } } = some .stamp
      ∧ refusal { ready with run := { ready.run with nominal := 2881 } } = some .tempo
      ∧ refusal { ready with run := { ready.run with nominal := 2880 } } = none := ⟨⟨rfl, rfl⟩, by decide⟩
theorem witness_CommandsRefused_stop_resume :
    idle.run.announced = .idle ∧ idle.run.announced ≠ .halted
      ∧ (inState .stopping idle).portFree ∧ (inState .stopping idle).run.announced = .stopping
      ∧ (inState .halted idle).portFree ∧ (inState .halted idle).run.stage = .done
      ∧ (inState .halted idle).run.announced = .halted
      ∧ ({ (inState .halted idle).run with cancelHeld := true } : RunControl).cancelHeld = true :=
  ⟨by decide, by decide, ⟨rfl, rfl⟩, rfl, ⟨rfl, rfl⟩, rfl, rfl, rfl⟩

theorem witness_StopTearsDown :
    (following 5).portFree ∧ (following 5).loader.installed ≠ none ∧ (following 5).run.stage = .done
      ∧ (following 5).run.announced = (following 5).tracker.state ∧ (following 5).tracker.state ≠ .idle
      ∧ (following 5).tracker.state ≠ .stopping := ⟨⟨rfl, rfl⟩, by decide⟩

theorem witness_ResumeEntersWinding :
    (inState .halted idle).portFree ∧ (inState .halted idle).loader.installed ≠ none
      ∧ (inState .halted idle).run.stage = .done ∧ (inState .halted idle).run.announced = .halted
      ∧ (inState .halted idle).tracker.state = .halted ∧ (inState .halted idle).run.cancelHeld = false :=
  ⟨⟨rfl, rfl⟩, by decide⟩

/-- Word 4119 is w3 of slot 5, and 11 010 its commit (1.12). -/
theorem witness_score :
    idle.portFree ∧ idle.loader.installed = some map ∧ regionOf (some map) (4119 : Addr).toNat = .score
      ∧ (4119 : Addr).toNat = map.scoreBase + 4 * 5 + 3 ∧ commitKind 11010 ≠ .empty
      ∧ commitKind 31 = .empty ∧ idle.loader.config = .configured
      ∧ regionOf (some map) (4118 : Addr).toNat = .score ∧ (4118 : Addr).toNat = map.scoreBase + 4 * 5 + 2 :=
  ⟨⟨rfl, rfl⟩, by decide⟩

/-- Slot 5 in a slot-map state. -/
def slotIn (v : SlotState) (s : State) : State :=
  { s with admission := { s.admission with slots := Table.set .free s.admission.slots 5 v } }

theorem witness_ScoreCommitTaken :
    idle.slot 5 = .free ∧ idle.admission.list.length < 32
      ∧ 32 ≤ (List.replicate 32 ({ slot := 9, commit := 11010 } : AdmissionEntry)).length
      ∧ (slotIn .pending idle).slot 5 = .pending ∧ (slotIn .fetching idle).slot 5 = .fetching
      ∧ (holding [note 5 .noteOn 24 960] idle).slot 5 = .heldNote
      ∧ (holding [note 5 .noteOn 24 960] idle).release.hold.find? (fun x => x.slot == 5)
        = some (note 5 .noteOn 24 960)
      ∧ (holding [note 5 .noteOn 24 960] (following 10)).portFree
      ∧ (holding [note 5 .noteOn 24 960] (following 10)).slot 5 = .heldNote
      ∧ (listening [cue 5 960 false] (following 10)).portFree
      ∧ (listening [cue 5 960 false] (following 10)).slot 5 = .heldCue
      ∧ (listening [cue 5 960 false] (following 10)).matcher.cues.find? (fun x => x.slot == 5)
        = some (cue 5 960 false)
      ∧ leastWait [] = (listening [cue 5 960 false] (following 10)).tracker.waitStamp
      ∧ (listening [cue 5 960 true] idle).slot 5 = .heldCue
      ∧ (listening [cue 5 960 true] idle).tracker.state = .idle
      ∧ (listening [cue 5 960 true] idle).matcher.announced = .idle :=
  ⟨rfl, by decide, by decide, rfl, rfl, rfl, by decide, ⟨rfl, rfl⟩, rfl, ⟨rfl, rfl⟩, by decide⟩

theorem witness_EditOrEmptyCommitOfUnheldSlot :
    (slotIn .fetching idle).portFree ∧ idle.slot 5 = .free ∧ (slotIn .pending idle).slot 5 = .pending
      ∧ (slotIn .fetching idle).slot 5 = .fetching
      ∧ ({ idle.loader with config := .loading } : Loader).config = .loading := ⟨⟨rfl, rfl⟩, by decide⟩

/-- The part in WAITING on WAIT cue 5 at 960 su, having come there from FOLLOWING; n further cues follow. -/
def standing (more : List CueEntry) : State :=
  let s := listening (cue 5 960 true :: more) (inState .waiting idle)
  { s with tracker := { s.tracker with position := 960 * 65536, returnState := some .following } }

theorem witness_EditOrEmptyCommitWithdraws :
    (holding [note 5 .noteOn 24 960] (following 10)).portFree
      ∧ (holding [note 5 .noteOn 24 960] (following 10)).slot 5 = .heldNote
      ∧ (listening [cue 5 960 false] (following 10)).portFree
      ∧ (listening [cue 5 960 false] (following 10)).slot 5 = .heldCue
      ∧ (listening [cue 5 960 false] (following 10)).matcher.cues.find? (fun x => x.slot == 5)
        = some (cue 5 960 false)
      ∧ leastWait ((listening [cue 5 960 false] (following 10)).matcher.cues.filter (fun x => x.slot != 5))
        = (listening [cue 5 960 false] (following 10)).tracker.waitStamp
      ∧ (listening [cue 5 960 true] idle).slot 5 = .heldCue
      ∧ (listening [cue 5 960 true] idle).tracker.state = .idle
      ∧ (listening [cue 5 960 true] idle).matcher.announced = .idle :=
  ⟨⟨rfl, rfl⟩, by decide, ⟨rfl, rfl⟩, by decide⟩
/-- A part in LOADING; and WAIT cue 5 ahead of the position in FOLLOWING. -/
theorem witness_ScoreCommitTaken_more :
    ({ idle with loader := { idle.loader with config := .loading } } : State).portFree
      ∧ (listening [cue 5 960 true] (following 10)).portFree
      ∧ (listening [cue 5 960 true] (following 10)).slot 5 = .heldCue
      ∧ (listening [cue 5 960 true] (following 10)).tracker.state ≠ .waiting
      ∧ (listening [cue 5 960 true] (following 10)).matcher.announced ≠ .waiting
      ∧ (listening [cue 5 960 true] (following 10)).tracker.waitStamp = some 960 ∧ leastWait [] = none
      ∧ (standing []).portFree ∧ (standing []).slot 5 = .heldCue ∧ (standing []).admission.list.length < 32 :=
  ⟨⟨rfl, rfl⟩, ⟨rfl, rfl⟩, rfl, by decide, by decide, rfl, rfl, ⟨rfl, rfl⟩, rfl, by decide⟩
theorem test_withdraw_waiting :
    (after (.scoreCommit 4119 11010) (standing [])).tracker.state = .following
      ∧ (after (.scoreCommit 4119 11010) (standing [])).admission.list = [{ slot := 5, commit := 11010 }]
      ∧ (after (.scoreCommit 4119 11010)
          { idle with loader := { idle.loader with config := .loading } }).admission.list = []
      ∧ (after (.scoreEdit 4118 7) (listening [cue 5 960 true] (following 10))).tracker.waitStamp = none := by
  decide

theorem standing_slotsNamed : (standing []).tablesCanonical = true ∧ (standing []).slotsNamed := by
  refine ⟨by decide, fun n => ?_, by decide⟩
  by_cases h : n = 5
  · subst h; refine ⟨by decide, by decide, by decide, ?_⟩
    exact ⟨fun x => absurd x (by decide), fun x => absurd rfl x.1⟩
  · have : (standing []).slot n = .free := by
      change Table.get SlotState.free [(5, SlotState.heldCue)] n = .free
      simp [Table.get, Ne.symm h]
    refine ⟨?_, ?_, ?_, ?_⟩ <;> rw [this] <;>
      simp [standing, listening, cue, inState, idle, State.reset, Admission.reset, Release.reset,
        Ne.symm h]

theorem witness_EditOrEmptyCommitWithdraws_waiting :
    (standing [cue 6 961 true]).portFree ∧ (standing [cue 6 961 true]).loader.installed = some map
      ∧ (standing [cue 6 961 true]).slot 5 = .heldCue
      ∧ (standing [cue 6 961 true]).matcher.cues.find? (fun x => x.slot == 5) = some (cue 5 960 true)
      ∧ (standing [cue 6 961 true]).matcher.cues.filter (fun x => x.slot != 5) = [cue 6 961 true]
      ∧ (standing [cue 6 961 true]).tracker.state = .waiting
      ∧ (standing [cue 6 961 true]).matcher.announced = .waiting
      ∧ leastWait [cue 6 961 true] ≠ (standing [cue 6 961 true]).tracker.waitStamp
      ∧ leastWait [cue 6 961 true] = some 961
      ∧ (standing [cue 6 961 true]).tracker.position < 961 * 65536
      ∧ (standing [cue 6 961 true]).tracker.returnState = some .following :=
  ⟨⟨rfl, rfl⟩, by decide⟩

/-- A fetch of slot 5 with its first word read. -/
def fetchingW1 : State :=
  { onPort (.fetchRead 4117 false) (slotIn .fetching idle) with
    admission := { (slotIn .fetching idle).admission with
      list := [{ slot := 5, commit := 11010 }], fetch := some [960] } }

theorem witness_ReadWordsKeptOrDiscarded :
    fetchingW1.path.waiting = none ∧ fetchingW1.path.port = some (.fetchRead 4117 false)
      ∧ fetchingW1.loader.installed = some map ∧ fetchingW1.admission.fetch = some [960]
      ∧ fetchingW1.admission.list = { slot := 5, commit := 11010 } :: []
      ∧ (onPort (.fetchRead 4117 true) idle).path.port = some (.fetchRead 4117 true)
      ∧ (after .reset idle).path.port = some (.anchorRead 0 false)
      ∧ (after .reset idle).loader.load = some [] ∧ (after .reset idle).path.waiting = none
      ∧ (onPort (.anchorRead 3 true) idle).path.port = some (.anchorRead 3 true) := by decide

/-- A record at the end of its fetch, the list's head. -/
theorem witness_fetchEnd (w0 w1 w2 c : Word) :
    (fetching w0 w1 w2 c idle).path.waiting = none
      ∧ (fetching w0 w1 w2 c idle).path.port = some (.fetchRead 4118 false)
      ∧ (fetching w0 w1 w2 c idle).loader.installed = some map
      ∧ (fetching w0 w1 w2 c idle).admission.fetch = some [w0, w1]
      ∧ (fetching w0 w1 w2 c idle).admission.list = { slot := 5, commit := c } :: [] :=
  ⟨rfl, rfl, rfl, rfl, rfl⟩

theorem witness_CheckCodeAtTheFetchEnd :
    (11010 : Word).toNat % 32
        ≠ (FetchedRecord.mk 961 0 ((fetching 961 0 0 11010 idle).mem.read 4118) 11010).checkValue
      ∧ (11039 : Word).toNat % 32 = 31
      ∧ (FetchedRecord.mk 0 0 0 0xE019).formError map.tmin map.tmax = some .kind
      ∧ (FetchedRecord.mk 960 0 1 11011).formError map.tmin map.tmax = some .payload := by decide

/-- A record of this kind, division, key, payload and stamp, its check code right (R10, R176). -/
def checked (kind division key payload stamp : Nat) : FetchedRecord :=
  let base := 8192 * kind + 2048 * division + 32 * key
  { w0 := BitVec.ofNat 16 stamp, w1 := BitVec.ofNat 16 (stamp / 65536), w2 := BitVec.ofNat 16 payload,
    commit := BitVec.ofNat 16
      (base + (stamp % 65536 + stamp / 65536 + payload % 65536 + base) % 31) }

/-- Such a record meets the premises of the tests behind CHECK. -/
theorem witness_CheckCodeAtTheFetchEnd_fields :
    (checked 4 3 61 2880 2147483648).commit.toNat % 32 = (checked 4 3 61 2880 2147483648).checkValue
      ∧ (checked 4 3 61 2880 2147483648).commit.toNat / 8192 = 4
      ∧ (checked 4 3 61 2880 2147483648).commit.toNat / 2048 % 4 = 3
      ∧ (checked 4 3 61 2880 2147483648).commit.toNat / 32 % 64 = 61
      ∧ (checked 4 3 61 2880 2147483648).w2.toNat = 2880
      ∧ (checked 4 3 61 2880 2147483648).w1.toNat * 65536 + (checked 4 3 61 2880 2147483648).w0.toNat
        = 2147483648 := by decide

/-- What the form check answers under Tmin 1280 and Tmax 2880. -/
def formOf (kind division key payload stamp : Nat) : Option FormReason :=
  (checked kind division key payload stamp).formError 1280 2880

theorem test_form_kind : formOf 7 0 0 0 0 = some .kind ∧ formOf 7 0 61 1 2147483648 = some .kind := by decide
theorem test_form_payload :
    formOf 1 0 0 1 0 = some .payload ∧ formOf 2 3 63 0x8000 0 = some .payload
      ∧ formOf 4 0 0 1279 0 = some .payload ∧ formOf 4 0 0 1280 0 = none
      ∧ formOf 4 0 0 2880 0 = none ∧ formOf 4 0 0 2881 0 = some .payload
      ∧ formOf 6 0 0 0 0 = some .payload ∧ formOf 6 0 0 256 0 = some .payload
      ∧ formOf 6 0 0 1 0 = none ∧ formOf 6 0 0 1023 0 = none ∧ formOf 6 0 0 1025 0 = some .payload
      ∧ formOf 3 0 0 0xFFFF 0 = none ∧ formOf 5 0 0 0xFFFF 0 = none := by decide
theorem test_form_range :
    formOf 1 0 60 0 2147483647 = none ∧ formOf 1 0 60 0 2147483648 = some .range
      ∧ formOf 1 2 61 0 0 = some .range ∧ formOf 2 3 31 0 0 = none ∧ formOf 2 3 32 0 0 = some .range
      ∧ formOf 3 3 0 0 0 = none ∧ formOf 3 0 1 0 0 = some .range ∧ formOf 4 1 0 1280 0 = some .range
      ∧ formOf 5 0 1 0 0 = some .range ∧ formOf 6 0 1 1 0 = some .range := by decide

/-- The record of 1.12, and a CUE record at stamp 960 with W = 24, with and without WAIT. -/
theorem witness_AdmissibleRecordPlaced :
    (FetchedRecord.mk 960 0 0 11010).formError map.tmin map.tmax = none
      ∧ (fetching 960 0 0 11010 idle).tooLate map (FetchedRecord.mk 960 0 0 11010) = false
      ∧ (commitKind 11010).toHold = some .noteOn ∧ idle.release.hold.length < 384
      ∧ 384 ≤ (List.replicate 384 (note 9 .noteOn 24 960)).length
      ∧ (FetchedRecord.mk 960 0 24 49161).formError map.tmin map.tmax = none ∧ commitKind 49161 = .cue
      ∧ (fetching 960 0 24 49161 idle).tooLate map (FetchedRecord.mk 960 0 24 49161) = false
      ∧ (24 : Word).toNat / 256 % 2 = 0 ∧ idle.matcher.waitStamp = idle.tracker.waitStamp
      ∧ idle.matcher.cues.length < 64 ∧ 64 ≤ (List.replicate 64 (cue 9 960 false)).length
      ∧ (FetchedRecord.mk 960 0 280 49169).formError map.tmin map.tmax = none
      ∧ idle.tracker.state = .idle ∧ idle.matcher.announced = .idle
      ∧ (fetching 960 0 0 11010 (following 1161)).tooLate map (FetchedRecord.mk 960 0 0 11010) = true
      ∧ (fetching 960 0 0 11010 (following 1160)).tooLate map (FetchedRecord.mk 960 0 0 11010) = false := by
  decide

/-- A cue of W = 24 at 960 su is late from 985 on, a WAIT cue from 961 on; at 960 it makes the wait stamp the
position, and ahead of the position it is the wait stamp that comes. -/
theorem witness_AdmissibleRecordPlaced_cues :
    (fetching 960 0 24 49161 (following 985)).tooLate map (FetchedRecord.mk 960 0 24 49161) = true
      ∧ (fetching 960 0 24 49161 (following 984)).tooLate map (FetchedRecord.mk 960 0 24 49161) = false
      ∧ (fetching 960 0 280 49169 (following 961)).tooLate map (FetchedRecord.mk 960 0 280 49169) = true
      ∧ (fetching 960 0 280 49169 (following 960)).tooLate map (FetchedRecord.mk 960 0 280 49169) = false
      ∧ (FetchedRecord.mk 960 0 280 49169).stamp = 960
      ∧ leastWait (cueInsert ((FetchedRecord.mk 960 0 280 49169).cueEntry 5 0) []) = some 960
      ∧ (fetching 960 0 280 49169 (following 960)).tracker.position = 960 * 65536
      ∧ (fetching 960 0 280 49169 (following 960)).tracker.waitStamp ≠ some 960
      ∧ (fetching 960 0 280 49169 (following 10)).tracker.position ≠ 960 * 65536
      ∧ (fetching 960 0 280 49169 (following 10)).matcher.announced ≠ .waiting := by decide
theorem test_waitCue_at_position :
    (after .fetchReadDone (fetching 960 0 280 49169 (following 960))).tracker.state = .waiting
      ∧ (after .fetchReadDone (fetching 960 0 280 49169 (following 10))).tracker.waitStamp = some 960
      ∧ (after .fetchReadDone (fetching 960 0 280 49169 (following 10))).tracker.state = .following := by decide

/-- A whole anchor block, valid: the regions of `map`, every division and pickup disabled. -/
def anchorBlock : List Word :=
  [0x7A31, 4096, 0, 256, 8192, 0, 1024, 0, 16, 2048, 0, 1280, 2880, 8200, 48, 51203, 10, 60, 40, 6000,
   200, 5000, 30, 1]
  ++ List.replicate 48 0 ++ [0, 0, 1920, 0, 0]

/-- The last word of a valid block: what brings the sum to 0. -/
def anchorLast : Word := BitVec.ofNat 16 (65536 - anchorSum (anchorBlock ++ [0]))

/-- A first load that has read 77 words, with the read of word 77 on the port. -/
def loaded (ws : List Word) (last : Word) : State :=
  { State.reset with
    mem := Memory.write [] 77 last,
    path := { MemPath.reset with port := some (.anchorRead 77 false) },
    loader := { Loader.reset with config := .loading, load := some ws } }

/-- The valid block with word n made v, and its sum brought to 0 again. -/
def anchorWith (n : Nat) (v : Word) : List Word :=
  let ws := anchorBlock.set n v
  ws ++ [BitVec.ofNat 16 (65536 - anchorSum (ws ++ [0]))]

/-- A load under an installed configuration that has read 77 words, with mask 7 held for division 1 and a commit
of pickup 2 noted; word 77 spoils the check sum. -/
def reloading (st : TrackerState) : State :=
  let s := inState st idle
  { onPort (.anchorRead 77 false) s with
    loader := { s.loader with
      config := .loading, load := some anchorBlock, heldMasks := s.loader.heldMasks.set 1 (some 7),
      noted := s.loader.noted.set 2 (some 3) } }

theorem witness_LoadJudgedAtWord77 :
    (loaded anchorBlock anchorLast).path.waiting = none
      ∧ (loaded anchorBlock anchorLast).path.port = some (.anchorRead 77 false)
      ∧ (loaded anchorBlock anchorLast).loader.load = some anchorBlock ∧ anchorBlock.length = 77
      ∧ anchorError (anchorBlock ++ [(loaded anchorBlock anchorLast).mem.read 77]) = none
      ∧ (loaded anchorBlock anchorLast).loader.config = .loading
      ∧ anchorError (anchorBlock ++ [(loaded anchorBlock 0).mem.read 77])
        = some (.check (anchorSum (anchorBlock ++ [0])))
      ∧ (loaded anchorBlock 0).loader.installed = none := by decide
theorem witness_LoadJudgedAtWord77_previous :
    (reloading .stopping).path.waiting = none
      ∧ (reloading .stopping).path.port = some (.anchorRead 77 false)
      ∧ (reloading .stopping).loader.load = some anchorBlock
      ∧ (reloading .stopping).loader.installed = some map
      ∧ (reloading .stopping).loader.config = .loading
      ∧ (reloading .stopping).tracker.state.running = false
      ∧ anchorError (anchorBlock ++ [(reloading .stopping).mem.read 77])
        = some (.check (anchorSum (anchorBlock ++ [0])))
      ∧ (reloading .idle).tracker.state.running = false := by decide
theorem test_load_invalid_previous :
    (after .anchorReadDone (reloading .stopping)).loader.config = .configured
      ∧ (after .anchorReadDone (reloading .stopping)).chest.sweeping .off = true
      ∧ ((after .anchorReadDone (reloading .idle)).chest.division 1).stopMask = 7
      ∧ (after .anchorReadDone (reloading .idle)).loader.pickupList = [{ pickup := 2, carried := 3 }]
      ∧ (after .anchorReadDone (reloading .idle)).chest.sweep = none := by decide
/-- A report raised and not yet taken goes to the previous log, whose record the ANCHOR record counts (R174). -/
theorem test_install_takes_raised :
    (after .anchorReadDone { loaded anchorBlock anchorLast with
      loader := { Loader.reset with
        config := .loading, load := some anchorBlock, installed := some map },
      raised := [{ block := .release, record := { report := .mark 5 2, frame := 1, position := 0 } }]
      }).report.queue.map (fun r => r.report) = [.anchor (.loaded 256 16 1)] := by decide
theorem test_install :
    (after .anchorReadDone (loaded anchorBlock anchorLast)).loader.installed
        = some (parseInstalled anchorBlock)
      ∧ (after .anchorReadDone (loaded anchorBlock anchorLast)).chest.sweeping .off = true
      ∧ (after .anchorReadDone (loaded anchorBlock anchorLast)).tracker.tempo = 1920 := by decide
theorem test_parse : parseInstalled anchorBlock = map := by decide

/-- The fields of R177 at the ends of their ranges, each met by some block. -/
theorem witness_LoadJudgedAtWord77_fields :
    anchorFieldLegal (fun _ => 64) 3 ∧ ¬ anchorFieldLegal (fun _ => 63) 3
      ∧ anchorFieldLegal (fun _ => 31) 16 ∧ ¬ anchorFieldLegal (fun _ => 32) 16
      ∧ ¬ anchorFieldLegal (fun _ => 0x0D00) 24 ∧ ¬ anchorFieldLegal (fun _ => 0x5000) 36 := by
  simp [anchorFieldLegal]
  exact ⟨by decide, by decide, 0, by decide⟩
/-- The five tests in their order (R159). -/
theorem test_anchor_tests :
    anchorError ((anchorWith 3 63).set 0 0) = some .signature
      ∧ anchorError (anchorWith 3 63) = some (.range 3) ∧ anchorError (anchorWith 3 64) = none
      ∧ anchorError (anchorWith 11 2881) = some .limits ∧ anchorError (anchorWith 11 2880) = none
      ∧ anchorError (anchorWith 1 77) = some .region ∧ anchorError (anchorWith 1 78) = some .region
      ∧ anchorError (anchorWith 1 4097) = none := by decide
theorem test_anchor_range_fields :
    anchorError (anchorWith 16 32) = some (.range 16) ∧ anchorError (anchorWith 24 0x0D01) = some (.range 24)
      ∧ anchorError (anchorWith 24 0x1401) = none ∧ anchorError (anchorWith 25 0x0001) = some (.range 25)
      ∧ anchorError (anchorWith 36 0x5001) = some (.range 36)
      ∧ anchorError (anchorWith 37 0x0080) = some (.range 37) := by decide
/-- A division and a pickup by the layout of R177. -/
theorem test_anchor_layout :
    (installedDivisions ((anchorWith 24 0x1407).set 25 0x3C58) (Vector.replicate 4 none))[(0 : Division)]
        = { enabled := true, reverse := true, transpose := -12,
            couplerA := some { target := 1, offset := 24 }, couplerB := none, stopMask := 0 }
      ∧ ((installedPickups ((anchorWith 42 0x206B).set 43 0x2141) (Vector.replicate 12 Pickup.reset))[
          (2 : PickupNo)]).entry
        = { enabled := true, weight := 5, delay := 6, count := 2, value1 := 65, value2 := 33, value3 := 0,
            value4 := 0 }
      ∧ ((installedPickups ((anchorWith 42 0x206B).set 43 0x2141) (Vector.replicate 12 Pickup.reset))[
          (2 : PickupNo)]).state = .configuring := by decide

/-- A pickup-entry fetch of pickup 2 with these words got. -/
def pickupFetch (got : List Word) : State :=
  { onPort (.pickupRead 43 false) idle with
    loader := { idle.loader with pickupList := [{ pickup := 2, carried := 0 }], pickupGot := got } }

theorem witness_PickupReadTaken (got : List Word) :
    (pickupFetch got).path.waiting = none ∧ (pickupFetch got).path.port = some (.pickupRead 43 false)
      ∧ (pickupFetch got).loader.pickupList = { pickup := 2, carried := 0 } :: []
      ∧ (pickupFetch got).loader.installed = some map ∧ (pickupFetch got).loader.pickupGot = got
      ∧ 4 < (0x5001 : Word).toNat / 4096 % 8 ∧ (0x0001 : Word).toNat / 4096 % 8 = 0
      ∧ (0x0001 : Word).toNat % 2 = 1 ∧ (pickupFetch got).link.pickups[(2 : PickupNo)].state = .disabled :=
  ⟨rfl, rfl, rfl, rfl, rfl, by decide, by decide, by decide, rfl⟩

/-- The fetch of pickup 2 with its first word got, the pickup in a state, with the quiet count at 2. -/
def delivering (st : PickupState) (w0 : Word) : State :=
  withPickup { heard 9 none with state := st, quiet := 2 } (pickupFetch [w0])

/-- Each cell of R83's table is reached: states before, an entry that disables, one without values, and one with
value count 1. -/
theorem witness_PickupReadTaken_table (st : PickupState) (w0 : Word) :
    (delivering st w0).path.waiting = none ∧ (delivering st w0).path.port = some (.pickupRead 43 false)
      ∧ (delivering st w0).loader.pickupGot = [w0]
      ∧ ((delivering st w0).link.pickups[(2 : PickupNo)]).state = st
      ∧ (0x0000 : Word).toNat % 2 ≠ 1 ∧ (0x0001 : Word).toNat / 4096 % 8 = 0
      ∧ (0x1001 : Word).toNat / 4096 % 8 = 1 ∧ (0x4001 : Word).toNat / 4096 % 8 ≤ 4 :=
  ⟨rfl, rfl, rfl, rfl, by decide, by decide, by decide, by decide⟩
theorem test_pickup_table :
    [PickupState.disabled, .configuring, .listening, .fault, .silent].map (fun st =>
        [0x0000, 0x0001, 0x1001].map (fun w0 =>
          ((after .pickupReadDone (delivering st w0)).link.pickups[(2 : PickupNo)]).state))
      = [[.disabled, .listening, .configuring], [.disabled, .listening, .configuring],
         [.disabled, .listening, .configuring], [.disabled, .fault, .fault],
         [.silent, .listening, .configuring]] := by decide

theorem witness_ChestWriteDoneStores (live : Bool) :
    (onPort (.chestWrite (fifoEntry 8192 true) live) idle).path.waiting = none
      ∧ (onPort (.chestWrite (fifoEntry 8192 true) live) idle).path.port
        = some (.chestWrite (fifoEntry 8192 true) live) := ⟨rfl, rfl⟩

/-- A task with these words to write, the first on the port. -/
def writing (k : TaskKind) (a : Nat) (v : Word) (rest : List (Nat × Word)) : State :=
  onPort (.reportWrite a v false)
    { idle with report := { idle.report with task := some { kind := k, words := (a, v) :: rest } } }

theorem witness_ReportWordDoneAdvances (k : TaskKind) (a : Nat) (v : Word) (rest : List (Nat × Word)) :
    (writing k a v rest).path.waiting = none ∧ (writing k a v rest).path.port = some (.reportWrite a v false)
      ∧ (writing k a v rest).loader.installed = some map
      ∧ (writing k a v rest).report.task = some { kind := k, words := (a, v) :: rest } := ⟨rfl, rfl, rfl, rfl⟩

theorem witness_PortAccessDoneCompletes (inverted : Bool) :
    (onPort (.procRead 100000 inverted) idle).path.waiting = none
      ∧ (onPort (.procRead 100000 inverted) idle).path.port = some (.procRead 100000 inverted)
      ∧ (onPort (.procWrite 100000 7) idle).path.port = some (.procWrite 100000 7)
      ∧ regionOf (onPort (.procWrite 100000 7) idle).loader.installed 100000 = .other
      ∧ regionOf (onPort (.procWrite 8192 7) idle).loader.installed 8192 = .chest
      ∧ (onPort (.writeBack 32 7) idle).path.port = some (.writeBack 32 7) ∧ idle.path.port = none :=
  ⟨rfl, rfl, rfl, rfl, rfl, rfl, rfl⟩
/-- A commit to slot 5 and a START that waited, each at its completion. -/
theorem witness_PortAccessDoneCompletes_waited :
    accessOf (.scoreCommit 4119 11010) = some (.write 4119 11010)
      ∧ (onPort (.procWrite 4119 11010) idle).path.port = some (.procWrite 4119 11010)
      ∧ regionOf (onPort (.procWrite 4119 11010) idle).loader.installed 4119 = .score
      ∧ accessOf .start = some (.write 75 1)
      ∧ (onPort (.procWrite 75 1) ready).path.port = some (.procWrite 75 1)
      ∧ regionOf (onPort (.procWrite 75 1) ready).loader.installed 75 = .anchor := by decide

/-- A chest write on the port, another behind it, a processor read waiting. -/
def contended (yields : Nat) : State :=
  { busy with
    chest := { idle.chest with fifo := [fifoEntry 8192 true, fifoEntry 8193 true] },
    path := { busy.path with waiting := some (.read 100000), yieldCount := yields, ready := false } }

theorem witness_ArbiterGrants (yields : Nat) :
    (contended yields).path.port = some (.chestWrite (fifoEntry 8192 true) true)
      ∧ (contended yields).chest.fifo = fifoEntry 8192 true :: fifoEntry 8193 true :: []
      ∧ (contended yields).path.waiting = some (.read 100000)
      ∧ (contended yields).path.yieldCount = yields := ⟨rfl, rfl, rfl, rfl⟩
/-- The write of the only FIFO entry on the port, with a processor read waiting or none. -/
def lastWrite (waits : Option ProcAccess) (s : State) : State :=
  { onPort (.chestWrite (fifoEntry 8192 true) true) s with
    chest := { s.chest with fifo := [fifoEntry 8192 true] },
    path := { s.path with
      port := some (.chestWrite (fifoEntry 8192 true) true), waiting := waits, yieldCount := 1 } }

/-- Requests of the three classes behind the fetch, and a fetch's. -/
def requesting (fetch pickup writeBack : Bool) (s : State) : State :=
  { s with
    admission := { s.admission with
      request := if fetch then some { address := 4116, discard := true } else none },
    loader := { s.loader with pickupList := if pickup then [{ pickup := 2, carried := 0 }] else [] },
    path := { s.path with writeBacks := if writeBack then [{ division := 3, mask := 7 }] else [] },
    report := { s.report with task := some { kind := .record, words := [(1024, 9)] } } }

theorem witness_ArbiterGrants_order :
    (lastWrite none (requesting true true true idle)).admission.request
        = some { address := 4116, discard := true }
      ∧ (lastWrite (some (.read 7)) (requesting false true true idle)).admission.request = none
      ∧ (lastWrite (some (.read 7)) (requesting false true true idle)).admission.list = []
      ∧ (lastWrite (some (.read 7)) (requesting false true true idle)).path.yieldCount < 2
      ∧ (lastWrite none (requesting false true true idle)).loader.load = none
      ∧ (lastWrite none (requesting false true true idle)).loader.config = .configured
      ∧ (lastWrite none (requesting false false true idle)).loader.pickupList = []
      ∧ (lastWrite none (requesting false false true idle)).path.writeBacks ≠ [] := by decide
theorem test_arbiter_order (w : Option ProcAccess) (h : w = none ∨ w = some (.read 7)) :
    (after .chestWriteDone (lastWrite w (requesting true true true idle))).path.port
        = some (.fetchRead 4116 true)
      ∧ (after .chestWriteDone (lastWrite w (requesting false true true idle))).path.port
        = some (.pickupRead 42 false)
      ∧ (after .chestWriteDone (lastWrite w (requesting false false true idle))).path.port = none
      ∧ (after .chestWriteDone (lastWrite w (requesting false false false idle))).path.port
        = some (.reportWrite 1024 9 false)
      ∧ (after .chestWriteDone (lastWrite w { requesting false false true idle with
          loader := { idle.loader with config := .loading, load := some [1, 2] } })).path.port
        = some (.anchorRead 2 false) := by
  rcases h with rfl | rfl <;> decide

/-- A read and writes that wait with no part requester waiting, and a write at a count of 2 with the next chest write
waiting; division 1, of reverse polarity, begins at chest word 64. -/
theorem witness_ArbiterGrants_processor :
    (lastWrite (some (.read 8256)) idle).path.waiting = some (.read 8256)
      ∧ (lastWrite (some (.write 8256 5)) idle).path.waiting = some (.write 8256 5)
      ∧ (lastWrite (some (.write 8256 5)) idle).admission.request = none
      ∧ (lastWrite (some (.write 8256 5)) idle).report.task = none
      ∧ regionOf idle.loader.installed 8256 = .chest
      ∧ (idle.chest.division (chestDivision map 8256)).reverse = true
      ∧ (idle.chest.division (chestDivision map 8192)).reverse = false
      ∧ regionOf idle.loader.installed 1024 = .log ∧ regionOf idle.loader.installed 2048 = .status
      ∧ (contended 2).path.yieldCount = 2 := by decide
theorem test_waiting_granted :
    (after .chestWriteDone (lastWrite (some (.read 8256)) idle)).path.port = some (.procRead 8256 true)
      ∧ (after .chestWriteDone (lastWrite (some (.write 8256 5)) idle)).path.port
        = some (.procWrite 8256 0xFFFA)
      ∧ (after .chestWriteDone (lastWrite (some (.write 8193 5)) idle)).path.port = some (.procWrite 8193 5)
      ∧ (after .chestWriteDone (lastWrite (some (.write 11 400)) idle)).path.port = some (.procWrite 11 400) := by
  decide
theorem test_waiting_dropped :
    (after .chestWriteDone (lastWrite (some (.write 2048 5)) idle)).path.port = none
      ∧ (after .chestWriteDone (lastWrite (some (.write 2048 5)) idle)).path.ready = true
      ∧ (after .chestWriteDone (lastWrite (some (.write 2048 5)) idle)).raised.map
          (fun r => (r.block, r.record.report)) = [(.memoryPath, .protectDrop 2048 5 .status)]
      ∧ (after .chestWriteDone (let s := contended 2
          { s with
            tracker := { s.tracker with state := .following },
            path := { s.path with waiting := some (.write 8256 5) } })).path.port
        = some (.chestWrite (fifoEntry 8193 true) true) := by decide

theorem witness_ArbiterGrants_writeBack :
    idle.portFree ∧ idle.chest.fifo = [] ∧ idle.admission.request = none ∧ idle.loader.load = none
      ∧ idle.loader.pickupList = []
      ∧ ({ idle.path with writeBacks := [{ division := 3, mask := 7 }] } : MemPath).writeBacks
        = { division := 3, mask := 7 } :: [] := ⟨⟨rfl, rfl⟩, by decide⟩

theorem witness_FrameStartTaken :
    idle.link.begun = true ∧ State.reset.link.begun = false ∧ idle.path.waiting = none
      ∧ idle.run.stage = .done ∧ idle.matcher.expiryDue = false ∧ idle.fuser.window = none
      ∧ idle.chest.sounding = [] ∧ idle.tracker.state.advancing = false
      ∧ idle.matcher.announced.running = false ∧ idle.run.announced ≠ .winding
      ∧ idle.run.wind = .unrequested ∧ idle.run.limitRunning = false ∧ idle.run.holdRunning = false
      ∧ idle.run.cancelHeld = false := by decide

/-- The part in a running state at 1000 su with that position in the trail, an expiry lag of 38 frames, and cue 3
at 900 ahead of cue 4 at 1000. -/
def expiring (st : TrackerState) (miss timer : Nat) : State :=
  let s := listening [cue 3 900 false, cue 4 1000 false] (inState st idle)
  { s with
    matcher := { s.matcher with lag := some 38, miss := miss, timer := timer },
    tracker := { s.tracker with
      position := 1000 * 65536, tempo := 1920, trail := List.replicate 512 1000 } }

theorem expiring_frameQuiet (st : TrackerState) (h : st ≠ .winding) (miss timer : Nat) :
    (expiring st miss timer).frameQuiet true :=
  ⟨⟨rfl, rfl, rfl, rfl, rfl, rfl⟩, rfl, h, fun _ => .inl rfl, rfl, rfl⟩

/-- Cue 3 is missed, cue 4 kept, in each state. -/
theorem witness_FrameStartTaken_expiry (st : TrackerState) :
    (expiring st 0 0).loader.installed = some map ∧ (expiring st 0 0).matcher.lag = some 38
      ∧ (expiring st 0 0).matcher.announced = (expiring st 0 0).tracker.state
      ∧ (expiring st 0 0).slotsDistinct = true
      ∧ ((expiring st 0 0).tracker.frameStart 10001).changes = []
      ∧ [cue 4 1000 false] = (expiring st 0 0).matcher.cues.filter
          (fun e => decide ((expiring st 0 0).nextExpiryTrail 38 ≤ e.stamp + e.w))
      ∧ [cue 3 900 false] = (expiring st 0 0).matcher.cues.filter
          (fun e => decide (e.stamp + e.w < (expiring st 0 0).nextExpiryTrail 38))
      ∧ leastWait [cue 4 1000 false] = (expiring st 0 0).matcher.waitStamp
      ∧ (expiring st 0 0).matcher.waitStamp = (expiring st 0 0).tracker.waitStamp
      ∧ (expiring st 0 0).matcher.miss + 1 < map.lossLimit
      ∧ (expiring st 2 0).matcher.miss + 0 + 1 = map.lossLimit
      ∧ (expiring st 0 0).matcher.timerStopped = false
      ∧ map.waitLimit ≤ (expiring st 0 5999).matcher.timer + 1 := by
  cases st <;> decide
theorem test_frame_loss :
    (after (.frameStart false true .tmr) (expiring .following 2 0)).tracker.state = .coasting
      ∧ (after (.frameStart false true .rmt) (expiring .following 2 0)).raised.map (fun r => r.record.report)
        = [.miss 3 900 24 false false false true, .state .following .coasting .loss]
      ∧ (after (.frameStart false true .mtr) (expiring .waiting 0 5999)).matcher.expiryDue = true
      ∧ (after (.frameStart false true .mtr) (expiring .waiting 0 5998)).matcher.timer = 5999 := by decide

/-- The part at a frame start whose run controller has this wind, this sample behind it, this settle and limit count
(the limit counter running) and this hold count (running unless 0). -/
def blowing (st : TrackerState) (wind : WindState) (last : Option Bool) (settle limit hold : Nat) : State :=
  let s := inState st idle
  { s with run := { s.run with
      wind := wind, windLast := last, settle := settle, limit := limit, limitRunning := limit != 0,
      hold := hold, holdRunning := hold != 0 } }

theorem blowing_nothingDue (st : TrackerState) (wind : WindState) (last : Option Bool) (settle limit hold : Nat) :
    (blowing st wind last settle limit hold).nothingDue := ⟨rfl, rfl, rfl, rfl, rfl, rfl⟩

/-- The wind limit 5000 and the settle 200 of `map` at their last frames, a hold at its last, a wind confirmed from
before WINDING, and a drop. -/
theorem witness_FrameStartTaken_wind :
    (blowing .winding .unconfirmed (some true) 0 1 0).tracker.state.advancing = false
      ∧ (blowing .winding .unconfirmed (some true) 0 1 0).matcher.announced.running = false
      ∧ (blowing .winding .unconfirmed (some true) 0 1 0).run.cancelHeld = false
      ∧ (blowing .winding .unconfirmed (some true) 0 1 0).run.cancelPrev ≠ some true
      ∧ 0 < map.windSettle ∧ ({ map with windSettle := 0 } : Installed).windSettle = 0
      ∧ map.windSettle ≤ (blowing .winding .settling (some true) 199 1 0).run.settle + 1
      ∧ (blowing .winding .settling (some true) 198 1 0).run.settle + 1 < map.windSettle
      ∧ map.windLimit ≤ (blowing .winding .unconfirmed none 0 4999 0).run.limit + 1
      ∧ (blowing .winding .unconfirmed none 0 4998 0).run.limit + 1 < map.windLimit
      ∧ (blowing .idle .confirmed (some true) 0 0 1).run.hold ≤ 1
      ∧ 1 < (blowing .idle .confirmed (some true) 0 0 2).run.hold
      ∧ (blowing .winding .confirmed (some true) 0 1 0).run.readyReported = false
      ∧ (blowing .winding .confirmed (some true) 0 1 0).tracker.waitStamp = none
      ∧ (blowing .following .confirmed (some false) 0 0 0).run.windLast = some false := by decide
theorem test_settle :
    (after (.frameStart false true .tmr) (blowing .winding .unconfirmed (some true) 7 1 0)).run.wind = .settling
      ∧ (after (.frameStart false true .tmr) (blowing .winding .unconfirmed (some true) 7 1 0)).run.settle = 0
      ∧ (after (.frameStart false true .tmr) (blowing .winding .unconfirmed (some false) 0 1 0)).run.wind
        = .unconfirmed
      ∧ (after (.frameStart false true .tmr) (blowing .winding .settling (some true) 198 1 0)).run.settle = 199
      ∧ (after (.frameStart false true .tmr) (blowing .winding .settling (some true) 199 1 0)).run.stage
        = .confirm
      ∧ (after (.frameStart false false .tmr) (blowing .winding .settling (some true) 198 1 0)).run.wind
        = .unconfirmed
      ∧ (after (.frameStart false true .tmr) (withMap { map with windSettle := 0 }
          (blowing .winding .unconfirmed (some true) 0 1 0))).run.stage = .confirm := by decide
theorem test_limit_and_hold :
    (after (.frameStart false true .rmt) (blowing .winding .unconfirmed none 0 4998 0)).run.limit = 4999
      ∧ (after (.frameStart false true .rmt) (blowing .winding .unconfirmed none 0 4999 0)).run.stage = .limit
      ∧ (after (.frameStart false true .rmt) (blowing .winding .settling none 199 4999 0)).run.stage = .confirm
      ∧ (after (.frameStart true true .rmt) (blowing .idle .confirmed none 0 0 2)).run.hold = 1
      ∧ (after (.frameStart true true .rmt) (blowing .idle .confirmed none 0 0 1)).run.stage = .hold := by decide
/-- A drop due in and outside the running states, and none at a single low sample (R148). -/
theorem test_drop_due (o : FrameOrder) (h : o = .tmr ∨ o = .rtm) :
    (after (.frameStart false false o) (blowing .idle .confirmed (some false) 0 0 9)).run.stage = .drop
      ∧ (after (.frameStart false false o) (blowing .idle .confirmed (some true) 0 0 9)).run.hold = 8
      ∧ (after (.frameStart false false o) (blowing .waiting .confirmed (some false) 0 0 0)).run.stage = .drop
      ∧ (after (.frameStart false false o) (blowing .following .confirmed (some false) 0 0 0)).run.stage
        = .drop := by rcases h with rfl | rfl <;> decide
/-- A wind confirmed from before WINDING is reported ready at the first frame start of WINDING (R145), and a WAIT cue
below the position is cleared first (R130). -/
theorem test_ready_at_once (o : FrameOrder) (h : o = .tmr ∨ o = .rtm) :
    (after (.frameStart false true o) (blowing .winding .confirmed (some true) 0 1 0)).raised.map
        (fun r => (r.block, r.record.report))
      = [(.run, .wind .ready), (.tracker, .state .winding .leading .windReady),
          (.release, .starved .runBegan none)]
      ∧ (after (.frameStart false true o) (blowing .winding .confirmed (some true) 0 1 0)).run.limit = 2
      ∧ (after (.frameStart false true o) (blowing .winding .confirmed (some true) 0 1 0)).run.readyReported = true
      ∧ (after (.frameStart false true o)
          (let s := listening [cue 7 10 true] (blowing .winding .confirmed (some true) 0 1 0)
           { s with tracker := { s.tracker with position := 11 * 65536 } })).tracker.awaitingClear = true := by
  rcases h with rfl | rfl <;> decide

/-- T = 1920 at 10 su: a frame brings 31 457 units of the fraction. -/
theorem witness_FrameAdvance :
    (following 10).tracker.state.advancing = true
      ∧ 31457 = ((following 10).tracker.tempo * 2048 + (following 10).tracker.remainder) / 125
      ∧ 686817 = (following 10).tracker.position + (31457 - (following 10).tracker.lag)
      ∧ 686817 / 65536 ≤ 2147483647
      ∧ (∀ w, (following 10).tracker.waitStamp = some w → (following 10).tracker.position ≤ w * 65536) := by
  refine ⟨by decide, by decide, by decide, by decide, ?_⟩
  intro w h
  cases h

/-- The part in FOLLOWING at a position in su, its expiry test able to run and no cue in the list but these. -/
def advancing (position : Nat) (cues : List CueEntry) : State :=
  let s := listening cues (following position)
  { s with matcher := { s.matcher with lag := some 3 } }

/-- At a position below the range, a quarter of a su short of a WAIT cue, and at the end of the range. -/
def shortOf (units : Nat) (cues : List CueEntry) : State :=
  let s := advancing 0 cues
  { s with tracker := { s.tracker with position := units } }

theorem shortOf_frameQuiet (units : Nat) (cues : List CueEntry) : (shortOf units cues).frameQuiet true :=
  ⟨⟨rfl, rfl, rfl, rfl, rfl, rfl⟩, rfl, by change TrackerState.following ≠ .winding; decide,
    fun _ => .inl rfl, rfl, rfl⟩

theorem witness_FrameAdvance_stops :
    (shortOf 655360 []).matcher.announced = (shortOf 655360 []).tracker.state
      ∧ (shortOf 655360 []).matcher.lag = some 3 ∧ (shortOf 655360 []).tracker.waitStamp = none
      ∧ (shortOf 655360 [cue 7 10 true]).tracker.waitStamp = some 10
      ∧ (shortOf 655360 [cue 7 10 true]).matcher.waitStamp = some 10
      ∧ (shortOf 655360 [cue 7 10 true]).tracker.position ≤ 10 * 65536
      ∧ 10 * 65536 ≤ (shortOf 655360 [cue 7 10 true]).tracker.position + (31457 - 0)
      ∧ (∀ e ∈ (shortOf 655360 [cue 7 10 true]).matcher.cues,
          (shortOf 655360 [cue 7 10 true]).nextExpiryTrail 3 ≤ e.stamp + e.w)
      ∧ 31457 = ((shortOf 140737488355327 []).tracker.tempo * 2048
          + (shortOf 140737488355327 []).tracker.remainder) / 125
      ∧ 2147483647 < ((shortOf 140737488355327 []).tracker.position + 31457) / 65536 := by decide
theorem test_frame_stops :
    (after (.frameStart false true .mtr) (shortOf 655360 [cue 7 10 true])).tracker.state = .waiting
      ∧ (after (.frameStart false true .rtm) (shortOf 140737488355327 [])).tracker.state = .halted := by decide

theorem witness_MessagesAtTheTracker :
    (following 1000).tracker.state = .following ∧ map.tmin ≤ map.tmax
      ∧ (-12 : Int) = ((-24) * (map.phaseGain : Int)).tdiv 16
      ∧ (12 : Int) = (24 * (map.phaseGain : Int)).tdiv 16 ∧ (0 : Int) < 12
      ∧ ((following 1000).tracker.position + 12 * 65536) / 65536 ≤ 2147483647
      ∧ waiting.tracker.state = .waiting
      ∧ (waiting.tracker.position + ((14 : Frame) - 0).toNat * 1800 * 2048 / 125) / 65536 ≤ 2147483647
      ∧ (∀ st, (inState st idle).tracker.state = st) :=
  ⟨by decide, by decide, by decide, by decide, by decide, by decide, by decide, by decide, fun _ => rfl⟩

/-- A jump of 12 su and a catch-up that end on a wait stamp, and at the end of the range. -/
theorem witness_MessagesAtTheTracker_landings :
    ({ (following 1000).tracker with waitStamp := some 1005 } : Tracker).position ≤ 1005 * 65536
      ∧ 1005 * 65536 ≤ (following 1000).tracker.position + (12 : Int).toNat * 65536
      ∧ 2147483647 < ((following 2147483647).tracker.position + (12 : Int).toNat * 65536) / 65536
      ∧ (following 2147483647).tracker.waitStamp = none
      ∧ 9600 * 65536 ≤ waiting.tracker.position + ((14 : Frame) - 0).toNat * 1920 * 2048 / 125
      ∧ waiting.tracker.waitStamp = some 9600 := by decide
theorem test_landings :
    ((({ (following 1000).tracker with waitStamp := some 1005 } : Tracker).takeMessage map 0
        (.capture 24 false)).changes,
      ((following 2147483647).tracker.takeMessage map 0 (.correction 24 false)).changes,
      (waiting.tracker.takeMessage map 14 (.waitEnd 0)).changes,
      (waiting.tracker.takeMessage map 14 .waitExpired).changes)
    = ([(.waiting, .waitReached)], [(.halted, .rangeEnd)],
       [(.following, .waitEnd), (.waiting, .waitReached)],
       [(.leading, .waitExpired), (.waiting, .waitReached)]) := by decide

/-- A matcher in FOLLOWING whose list is cue 3 at 1000, cue 4 at 1100, cue 5 at 1200. -/
def three : Matcher := (listening [cue 3 1000 false, cue 4 1100 false, cue 5 1200 false] (following 1100)).matcher

theorem witness_FusedOnsetMatched :
    three.announced = .following ∧ three.cues = [cue 3 1000 false] ++ cue 4 1100 false :: [cue 5 1200 false]
      ∧ ¬ (1124 ≤ (cue 3 1000 false).stamp + 24 ∧ (cue 3 1000 false).stamp ≤ 1124 + 24)
      ∧ 1124 ≤ (cue 4 1100 false).stamp + (cue 4 1100 false).w
      ∧ (cue 4 1100 false).stamp ≤ 1124 + (cue 4 1100 false).w
      ∧ (∀ x ∈ three.cues, ¬ (1125 ≤ x.stamp + x.w ∧ x.stamp ≤ 1125 + x.w))
      ∧ (∀ st, ({ three with announced := st } : Matcher).announced = st
        ∧ ({ three with announced := st } : Matcher).capture = 0
        ∧ ({ three with announced := st } : Matcher).cues = three.cues)
      ∧ (∀ x ∈ three.cues, x.wait = false)
      ∧ ({ three with announced := .waiting, capture := 2 } : Matcher).capture = 2
      ∧ (standing [cue 6 961 true]).matcher.announced = .waiting
      ∧ (standing [cue 6 961 true]).matcher.cues = [] ++ cue 5 960 true :: [cue 6 961 true]
      ∧ (cue 5 960 true).wait = true :=
  ⟨by decide, by decide, by decide, by decide, by decide, by decide,
    fun _ => ⟨rfl, rfl, rfl⟩, by decide, rfl, by decide, by decide, rfl⟩

theorem witness_OnsetOpensOrJoinsWindow :
    idle.fuser.running = false ∧ (following 5).fuser.running = true ∧ (following 5).fuser.window = none
      ∧ openWindow.spans 9990 = true ∧ openWindow.spans 9991 = false
      ∧ (∃ d ∈ openWindow.contributors, d.pickup = (2 : PickupNo))
      ∧ (∀ d ∈ openWindow.contributors, d.pickup ≠ (3 : PickupNo)) := by decide

/-- The span of a window opened at frame 9980 under MergeSpan 10, and of one whose span passes 2^32. -/
theorem witness_OnsetOpensOrJoinsWindow_span :
    openWindow.closing = openWindow.opening + BitVec.ofNat 32 10
      ∧ openWindow.spans 9980 = true ∧ openWindow.spans 9979 = false
      ∧ ({ openWindow with opening := 4294967290, closing := 4 } : Window).closing
        = 4294967290 + BitVec.ofNat 32 10
      ∧ ({ openWindow with opening := 4294967290, closing := 4 } : Window).spans 4 = true
      ∧ ({ openWindow with opening := 4294967290, closing := 4 } : Window).spans 5 = false := by decide

/-- A window with a contributor of the opening arrival and one of the frame after it. -/
def twoWindow : Window :=
  { openWindow with contributors := openWindow.contributors ++
      [{ pickup := 7, strength := 5, contribution := 20, compensated := 9975, arrival := 9981 }] }

theorem witness_OnsetOpensOrJoinsWindow_place :
    twoWindow.spans 9981 = true ∧ (∀ d ∈ twoWindow.contributors, d.pickup ≠ (4 : PickupNo))
      ∧ twoWindow.contributors.Pairwise (fun c d =>
          (c.arrival - twoWindow.opening).toNat < (d.arrival - twoWindow.opening).toNat
            ∨ c.arrival = d.arrival ∧ c.pickup < d.pickup) := by decide
theorem test_onset_in_place :
    (twoWindow.join { pickup := 4, strength := 3, contribution := 12, compensated := 9974, arrival := 9981 }).contributors.map
      (fun c => c.pickup) = [2, 4, 7] := by decide

theorem witness_WindowCloseTaken :
    (overdue (following 1000)).path.waiting = none ∧ (overdue (following 1000)).loader.installed = some map
      ∧ (overdue (following 1000)).fuser.window = some openWindow ∧ openWindow.spans 10000 = false
      ∧ map.fusionThreshold ≤ openWindow.sum
      ∧ openWindow.contributors
        = [] ++ { pickup := 2, strength := 9, contribution := 170, compensated := 9974, arrival := 9980 } :: []
      ∧ (following 1000).tracker.trail.getD ((9974 : Frame).toNat % 512) 0 = 0
      ∧ ({ openWindow with sum := 59 } : Window).sum < map.fusionThreshold
      ∧ (overdue idle).matcher.announced.running = false
      ∧ (overdue idle).matcher.waitStamp = (overdue idle).tracker.waitStamp
      ∧ (overdue (following 1000)).matcher.cues = []
      ∧ ({ openWindow with closing := 10000 } : Window).spans 10000 = true := by decide

/-- The part in a state and at a capture count with an overdue window and cue 3 at 10 su, where the onset's trail
position is 0. -/
def heardCue (st : TrackerState) (capture : Nat) : State :=
  let s := overdue (listening [cue 3 10 false] (inState st idle))
  { s with matcher := { s.matcher with capture := capture } }

theorem witness_WindowCloseTaken_match (st : TrackerState) (capture : Nat) :
    (heardCue st capture).matcher.announced = st ∧ (heardCue st capture).tracker.state = st
      ∧ (heardCue st capture).matcher.capture = capture
      ∧ (heardCue st capture).matcher.cues = [] ++ cue 3 10 false :: []
      ∧ 0 ≤ (cue 3 10 false).stamp + (cue 3 10 false).w ∧ (cue 3 10 false).stamp ≤ 0 + (cue 3 10 false).w
      ∧ leastWait [] = (heardCue st capture).tracker.waitStamp
      ∧ ((heardCue .following 2).tracker.takeMessage map 10000 (.correction 10 false)).changes = []
      ∧ ((heardCue .coasting 1).tracker.takeMessage map 10000 (.capture 10 false)).changes
        = [(.following, .capture)] :=
  ⟨rfl, rfl, rfl, rfl, by decide, by decide, rfl, by decide, by decide⟩
theorem witness_WindowCloseTaken_waiting :
    (overdue waiting).matcher.announced = .waiting ∧ (overdue waiting).tracker.state = .waiting
      ∧ (overdue waiting).matcher.cues = [] ++ cue 7 9600 true :: [] ∧ (cue 7 9600 true).wait = true
      ∧ leastWait [] = none
      ∧ ((overdue waiting).tracker.position
          + ((10000 : Frame) - 9974).toNat * (overdue waiting).tracker.tempo * 2048 / 125) / 65536
        ≤ 2147483647 := by decide
theorem test_windowClose_match :
    (after .windowClose (heardCue .coasting 1)).tracker.state = .following
      ∧ (after .windowClose (heardCue .leading 0)).matcher.capture = 1
      ∧ (after .windowClose (heardCue .following 2)).tracker.position = 5 * 65536
      ∧ (after .windowClose (overdue waiting)).tracker.state = .following := by decide

theorem witness_SlotEventTakenWhole :
    (heard 0 none).state = .listening ∧ (heard 0 none).handshake = none ∧ slotGood 0 = false
      ∧ (heard 0 none).parityRun + 1 < 8 ∧ ({ heard 0 none with parityRun := 7 } : Pickup).parityRun + 1 = 8
      ∧ slotGood 0x92 = true ∧ slotCode 0x92 ≠ 15 ∧ (heard 0 none).stuckRun < 3
      ∧ (heard 9 (some { strength := 9, frame := 9999 })).candidate = some { strength := 9, frame := 9999 }
      ∧ 1 ≤ slotCode 0x92 ∧ slotCode 0x92 ≤ 14 ∧ (heard 0 none).candidate = none
      ∧ (heard 0 none).lastCode = some 0 ∧ slotGood 0xF2 = true ∧ slotCode 0xF2 = 15
      ∧ (heard 15 none).lastCode = some 15 := by decide

/-- Pickup 2 in FAULT with liveness 0 behind it. -/
def faulty (good : Nat) : Pickup := { heard 0 none with state := .fault, goodRun := good }

/-- Liveness 1 follows 0 and 3; code 9 after the candidate 9 is handed to a fuser that runs without a window. -/
theorem witness_SlotEventTakenWhole_more :
    ({ heard 0 none with stuckRun := 3, lastLiveness := some 3 } : Pickup).stuckRun = 3
      ∧ slotLiveness 0x92 ≠ (3 + 1) % 4 ∧ slotLiveness 0x92 = (0 + 1) % 4
      ∧ (faulty 2).state = .fault ∧ (faulty 2).lastLiveness = some 0 ∧ (faulty 2).goodRun < 3
      ∧ (faulty 3).goodRun = 3
      ∧ (withPickup (heard 9 (some { strength := 9, frame := 9999 })) (following 5)).link.pickups[(2 : PickupNo)]
        = heard 9 (some { strength := 9, frame := 9999 })
      ∧ (withPickup (heard 9 none) (following 5)).fuser.running = true
      ∧ (withPickup (heard 9 none) (following 5)).fuser.window = none
      ∧ (withPickup (heard 9 none) idle).fuser.running = false
      ∧ (withPickup (heard 9 none) (following 5)).path.waiting = none
      ∧ (late.lst).value < 128 ∧ (16 : Fin 96).val = 8 * (2 : PickupNo).val
      ∧ (23 : Fin 96).val = 8 * (2 : PickupNo).val + 1 + 6 := by decide
/-- A single code 15; a stuck run of 3 behind no liveness and with the liveness that follows; FAULT behind no liveness;
DISABLED and SILENT. -/
theorem witness_SlotEventTakenWhole_kept :
    slotGood 0xF2 = true ∧ slotCode 0xF2 = 15 ∧ (heard 9 none).lastCode ≠ some 15
      ∧ ({ heard 9 none with stuckRun := 3, lastLiveness := none } : Pickup).lastLiveness = none
      ∧ slotLiveness 0x92 = (0 + 1) % 4
      ∧ ({ faulty 2 with lastLiveness := none } : Pickup).state = .fault
      ∧ ({ faulty 3 with lastLiveness := none } : Pickup).goodRun < 4
      ∧ Pickup.reset.state = .disabled ∧ ({ heard 9 none with state := .silent } : Pickup).state = .silent := by
  decide
theorem test_slot_kept :
    (Pickup.slotEvent 2 10000 0xF2 (heard 9 (some { strength := 9, frame := 9999 }))).pickup.state = .listening
      ∧ (Pickup.slotEvent 2 10000 0xF2 (heard 9 (some { strength := 9, frame := 9999 }))).pickup.candidate = none
      ∧ (Pickup.slotEvent 2 10000 0xF2 (heard 0 none)).pickup.candidate = none
      ∧ (Pickup.slotEvent 2 10000 0x92 { heard 0 none with stuckRun := 3 }).pickup.stuckRun = 0
      ∧ (Pickup.slotEvent 2 10000 0x92 { heard 0 none with stuckRun := 3, lastLiveness := none }).pickup.stuckRun
        = 3 := by decide
theorem test_slot_fault_reference :
    (Pickup.slotEvent 2 10000 0x92 { faulty 3 with lastLiveness := none }).pickup.goodRun = 3
      ∧ (Pickup.slotEvent 2 10000 0xF2 { faulty 3 with lastLiveness := none }).pickup.goodRun = 0
      ∧ (Pickup.slotEvent 2 10000 0x92 { faulty 3 with lastLiveness := none }).pickup.lastLiveness = some 1
      ∧ Pickup.slotEvent 2 10000 0x92 { heard 9 none with state := .silent }
        = PickupResult.plain { heard 9 none with state := .silent, quiet := 1 } := by decide

/-- The fourth stuck slot faults pickup 2, the only one in LISTENING: its report, and the lag falls to MergeSpan
plus 2 (R70, R102). -/
theorem witness_SlotEventTakenWhole_report :
    (withPickup { heard 9 none with stuckRun := 3 } idle).path.waiting = none
      ∧ (withPickup { heard 9 none with stuckRun := 3 } idle).loader.installed = some map
      ∧ { heard 9 none with stuckRun := 3 }
        = (withPickup { heard 9 none with stuckRun := 3 } idle).link.pickups[(2 : PickupNo)]
      ∧ (heard 9 none).handshake = none
      ∧ (Pickup.slotEvent 2 10000 0x97 { heard 9 none with stuckRun := 3 }).reason = some .stuck
      ∧ (Pickup.slotEvent 2 10000 0x97 { heard 9 none with stuckRun := 3 }).onset = none
      ∧ (Pickup.slotEvent 2 10000 0x92 (heard 9 none)).onset = none
      ∧ (∀ j : PickupNo, ((withPickup (heard 9 none) idle).link.pickups[j]).state = .listening →
        ((withPickup (heard 9 none) idle).link.pickups[j]).entry.delay ≤ 6)
      ∧ ((withPickup (heard 9 none) idle).link.pickups[(2 : PickupNo)]).entry.delay = 6 := by decide
theorem test_slot_report :
    (after (.slotEvent 2 0x97) (withPickup { heard 9 none with stuckRun := 3 } idle)).raised.map
        (fun r => r.record.report) = [.pickup 2 .listening .fault .stuck]
      ∧ (after (.slotEvent 2 0x97) (withPickup { heard 9 none with stuckRun := 3 } idle)).matcher.lag = some 12
      ∧ (after (.slotEvent 2 0x92) (withPickup (heard 9 none) idle)).raised = []
      ∧ (after (.slotEvent 2 0x92) (withPickup (heard 9 none) idle)).matcher.lag = some 18 := by decide
theorem test_slot_handed_on :
    (after (.slotEvent 2 0x92) (withPickup (heard 9 (some { strength := 9, frame := 9999 }))
      (following 5))).fuser.window.map (fun w => (w.opening, w.closing, w.sum)) = some (10000, 10010, 36)
    ∧ ((after (.slotEvent 2 0x92) (withPickup (faulty 3) idle)).link.pickups[2]).state = .listening := by decide

/-- A handshake in SENDING. -/
def sending (active inactive frames : Nat) (acked : Bool) : Handshake :=
  { Handshake.atStart 2 with
    phase := .sending, active := active, inactive := inactive, frames := frames, ackedOnce := acked }

theorem witness_HandshakeInSending :
    (sending 1 0 3 false).phase = .sending ∧ (sending 1 0 3 false).active + 1 = 2
      ∧ (sending 1 0 3 false).index < 3 ∧ 1 ≤ (sending 1 0 3 false).index
      ∧ (sending 0 0 48 false).active = 0 ∧ (sending 0 0 48 false).frames + 1 < 50
      ∧ 50 ≤ (sending 0 0 49 false).frames + 1
      ∧ (sending 0 1 3 true).ackedOnce = true ∧ (sending 0 1 3 true).inactive = 1
      ∧ (sending 0 0 3 false).ackedOnce = false
      ∧ (∀ ph, ({ sending 0 0 3 true with phase := ph } : Handshake).phase = ph
        ∧ ({ sending 0 0 3 true with phase := ph } : Handshake).inactive = 0)
      ∧ ({ late with quiet := 2 } : Pickup).quiet = 2 ∧ late.quiet ≠ 2 :=
  ⟨by decide, by decide, by decide, by decide, by decide, by decide, by decide, by decide, by decide,
    by decide, fun _ => ⟨rfl, rfl⟩, rfl, by decide⟩

/-- Pickup 2 in CONFIGURING, sending value 65 with one ack active behind it. -/
def configuring (parity : Nat) (code : Option Nat) : Pickup :=
  { heard 0 none with
    entry := { (heard 0 none).entry with count := 2, value1 := 65, value2 := 33 },
    state := .configuring, parityRun := parity, lastCode := code,
    handshake := some (sending 1 0 3 false), lst := { present := true, value := 65 } }

/-- Good slots with ack and without a fault, with two codes of 15, stuck; and parity failures, the seventh and the
eighth. -/
theorem witness_HandshakeInSending_slots :
    (configuring 0 none).state = .configuring
      ∧ (configuring 0 none).handshake = some (sending 1 0 3 false)
      ∧ slotGood 0x0B = true ∧ slotAck 0x0B = true ∧ slotLiveness 0x0B = (0 + 1) % 4
      ∧ slotGood 0xF2 = true ∧ slotCode 0xF2 = 15 ∧ (configuring 0 (some 15)).lastCode = some 15
      ∧ slotGood 0x0E = true ∧ slotLiveness 0x0E ≠ (0 + 1) % 4
      ∧ min 4 (({ configuring 0 none with stuckRun := 3 } : Pickup).stuckRun + 1) = 4
      ∧ slotGood 0 = false ∧ (configuring 6 none).parityRun + 1 < 8
      ∧ (configuring 7 none).parityRun + 1 = 8 := by decide
theorem test_slot_configuring :
    (Pickup.slotEvent 2 10000 0x0B (configuring 0 none)).pickup.handshake
        = some { sending 0 0 0 true with phase := .gap, index := 2 }
      ∧ (Pickup.slotEvent 2 10000 0x0B (configuring 0 none)).pickup.lst = { present := false, value := 0 }
      ∧ (Pickup.slotEvent 2 10000 0 (configuring 6 none)).pickup.handshake = some (sending 0 0 4 false)
      ∧ (Pickup.slotEvent 2 10000 0 (configuring 6 none)).pickup.lst = { present := true, value := 65 }
      ∧ (Pickup.slotEvent 2 10000 0 (configuring 7 none)).reason = some .parity
      ∧ (Pickup.slotEvent 2 10000 0 (configuring 7 none)).pickup.handshake = none := by decide
theorem test_slot_configuring_faults :
    (Pickup.slotEvent 2 10000 0xF2 (configuring 0 (some 15))).reason = some .faultCode
      ∧ (Pickup.slotEvent 2 10000 0xF2 (configuring 0 (some 15))).pickup.handshake = none
      ∧ (Pickup.slotEvent 2 10000 0x0E { configuring 0 none with stuckRun := 3 }).reason = some .stuck
      ∧ (Pickup.slotEvent 2 10000 0x0E { configuring 0 none with stuckRun := 3 }).pickup.state = .fault := by
  decide

theorem witness_TimeoutSilencesPickup :
    (withPickup late idle).loader.installed = some map
      ∧ late = (withPickup late idle).link.pickups[(2 : PickupNo)]
      ∧ late.handshake = some { Handshake.atStart 2 with phase := .sending, frames := 49, timeoutDue := true } := by
  decide

theorem witness_WaitExpiryEntersLeading :
    waiting.path.waiting = none ∧ waiting.loader.installed = some map ∧ waiting.matcher.expiryDue = true
      ∧ waiting.matcher.announced = .waiting ∧ waiting.tracker.state = .waiting
      ∧ waiting.matcher.cues.find? (fun x => x.wait) = some (cue 7 9600 true)
      ∧ waiting.tracker.position = (cue 7 9600 true).stamp * 65536
      ∧ waiting.tracker.waitStamp = some (cue 7 9600 true).stamp
      ∧ leastWait (waiting.matcher.cues.filter (fun x => x.slot != (cue 7 9600 true).slot))
        ≠ some (cue 7 9600 true).stamp := by decide

theorem witness_ClearAnswerEntersLeading :
    clearing.path.waiting = none ∧ clearing.loader.installed ≠ none ∧ clearing.matcher.clearAnswer = true
      ∧ clearing.tracker.awaitingClear = true ∧ clearing.tracker.state = .winding
      ∧ clearing.release.hold ≠ [] ∧ clearing.matcher.waitStamp = none := by decide

theorem witness_CancelSampledAndReleased :
    (atStage .cancelRelease idle).path.waiting = none ∧ (atStage .cancelRelease idle).run.stage = .cancelRelease
      ∧ idle.run.announced = .idle ∧ idle.run.wind = .unrequested ∧ idle.run.limitRunning = false
      ∧ idle.run.holdRunning = false ∧ (atStage .hold idle).run.stage = .hold := by decide

theorem witness_CancelAssertTaken (st : TrackerState) :
    (atStage .cancelAssert (inState st idle)).path.waiting = none
      ∧ (atStage .cancelAssert (inState st idle)).run.stage = .cancelAssert
      ∧ (atStage .cancelAssert (inState st idle)).run.announced
        = (atStage .cancelAssert (inState st idle)).tracker.state
      ∧ (atStage .cancelAssert (inState st idle)).loader.installed ≠ none
      ∧ (atStage .cancelAssert State.reset).loader.installed = none
      ∧ (atStage .cancelAssert State.reset).tracker.state = .idle :=
  ⟨rfl, rfl, rfl, by simp [atStage, inState, idle], rfl, rfl⟩

theorem witness_WindConfirmedEntersLeading :
    settled.path.waiting = none ∧ settled.loader.installed ≠ none ∧ settled.run.stage = .confirm
      ∧ settled.run.announced = .winding ∧ settled.tracker.state = .winding
      ∧ settled.run.readyReported = false ∧ settled.tracker.waitStamp = none := by
  decide

/-- The part in WINDING with a settle that has just ended, at 100 su, listening for these cues. -/
def settledWith (cues : List CueEntry) : State :=
  let s := listening cues (inState .winding idle)
  { atStage .confirm s with
    run := { s.run with wind := .settling, limitRunning := true, stage := .confirm },
    tracker := { s.tracker with position := 100 * 65536 } }

/-- On the wait stamp with the queue empty, and with WAIT cue 3 left behind the position. -/
theorem witness_WindConfirmedEntersLeading_more :
    (settledWith [cue 3 100 true]).run.stage = .confirm ∧ (settledWith [cue 3 100 true]).path.waiting = none
      ∧ (settledWith [cue 3 100 true]).run.readyReported = false
      ∧ (settledWith [cue 3 100 true]).tracker.waitStamp = some 100
      ∧ (settledWith [cue 3 100 true]).tracker.position ≤ 100 * 65536
      ∧ (settledWith [cue 3 100 true]).release.hold = []
      ∧ (settledWith [cue 3 100 true]).release.starved = false
      ∧ (settledWith [cue 3 50 true, cue 4 120 false]).tracker.waitStamp = some 50
      ∧ 50 * 65536 < (settledWith [cue 3 50 true, cue 4 120 false]).tracker.position := by decide
theorem test_windConfirmed_more :
    (after .windConfirmed (settledWith [cue 3 100 true])).raised.map (fun r => r.record.report)
        = [.wind .ready, .state .winding .leading .windReady, .starved .runBegan none,
           .state .leading .waiting .waitReached]
      ∧ (after .windConfirmed (settledWith [cue 3 50 true, cue 4 120 false])).raised.map
          (fun r => r.record.report) = [.wind .ready, .waitExpired 3 50]
      ∧ (after .windConfirmed (settledWith [cue 3 50 true, cue 4 120 false])).tracker.awaitingClear = true := by
  decide

theorem witness_WindLimitHalts :
    (atStage .limit (inState .winding idle)).path.waiting = none
      ∧ (atStage .limit (inState .winding idle)).loader.installed ≠ none
      ∧ (atStage .limit (inState .winding idle)).run.stage = .limit
      ∧ (atStage .limit (inState .winding idle)).run.announced = .winding
      ∧ (atStage .limit (inState .winding idle)).tracker.state = .winding := by decide

/-- The part in WINDING at the drop stage, the ready report made or not, its last WINDOK sample low. -/
def dropping (reported : Bool) : State :=
  let s := atStage .drop (inState .winding idle)
  { s with run := { s.run with readyReported := reported, windLast := some false } }

theorem witness_WindDropHalts :
    (atStage .drop (following 10)).path.waiting = none ∧ (atStage .drop (following 10)).loader.installed ≠ none
      ∧ (atStage .drop (following 10)).run.stage = .drop
      ∧ (atStage .drop (following 10)).run.announced = (atStage .drop (following 10)).tracker.state
      ∧ (atStage .drop (following 10)).tracker.state.running = true
      ∧ (atStage .drop (inState .stopping idle)).run.announced
        = (atStage .drop (inState .stopping idle)).tracker.state
      ∧ (atStage .drop (inState .stopping idle)).tracker.state = .stopping := by decide
theorem witness_WindDropHalts_winding (reported : Bool) :
    (dropping reported).path.waiting = none ∧ (dropping reported).loader.installed ≠ none
      ∧ (dropping reported).run.stage = .drop
      ∧ (dropping reported).run.announced = (dropping reported).tracker.state
      ∧ (dropping reported).tracker.state = .winding ∧ (dropping reported).run.readyReported = reported
      ∧ (dropping reported).run.windLast = some false := by cases reported <;> decide
theorem test_windDrop_winding : (after .windDrop (dropping true)).tracker.state = .halted
    ∧ (after .windDrop (dropping false)).tracker.state = .winding := by decide

/-- The part in FOLLOWING at 960 su with this head due and another entry behind it. -/
def due (kind : HoldKind) : State :=
  withMap mapPlain (holding [note 5 kind 24 960, note 6 .mark 0 1000] (following 960))

theorem witness_ReleaseDispatchesByKind (kind : HoldKind) :
    (due kind).path.waiting = none ∧ (due kind).loader.installed = some mapPlain
      ∧ mapPlain.releaseHistory = false ∧ map.releaseHistory = true
      ∧ (withMap map (due kind)).loader.installed = some map
      ∧ (due kind).release.hold = note 5 kind 24 960 :: [note 6 .mark 0 1000]
      ∧ (due kind).tracker.state.running = true
      ∧ (note 5 kind 24 960).stamp * 65536 ≤ (due kind).tracker.position
      ∧ (due kind).matcher.waitStamp = none ∧ (note 5 kind 24 960).kind = kind := by
  cases kind <;> decide

theorem witness_ReleaseOfNotes :
    (due .noteOn).fifoCount ≤ 13 ∧ ((due .noteOn).chest.division 0).enabled = true
      ∧ ((due .noteOn).chest.division 0).couplerA = none ∧ ((due .noteOn).chest.division 0).couplerB = none
      ∧ ((note 5 .noteOn 24 960).key : Int) + ((due .noteOn).chest.division 0).transpose = (24 : Nat)
      ∧ 24 < compass 0 ∧ (due .noteOn).chest.sweep = none
      ∧ (due .noteOn).chest.sound 0 24
        = { holders := 0, pendingOn := false, due := false, lastOff := none }
      ∧ ((due .noteOff).chest.setSound 0 24
          { holders := 1, pendingOn := false, due := false, lastOff := none }).sound 0 24
        = { holders := 1, pendingOn := false, due := false, lastOff := none }
      ∧ (idle.link.frame - 9960).toNat = map.repeatGap
      ∧ idle.tracker.state.running = false
      ∧ 14 ≤ (sweeping { kind := .mute, set := Divisions.all, division := 0, key := 0, passed := false }
          (List.replicate 14 (fifoEntry 8192 true)) idle).fifoCount := by decide

/-- A key of division 0 in the sounding table. -/
def keyed (e : SoundEntry) : Chest := idle.chest.setSound 0 24 e

theorem witness_NoteHoldsTaken :
    (keyed { holders := 7, pendingOn := false, due := false, lastOff := none }).sound 0 24
        = { holders := 7, pendingOn := false, due := false, lastOff := none }
      ∧ (keyed { holders := 6, pendingOn := false, due := false, lastOff := none }).sound 0 24
        = { holders := 6, pendingOn := false, due := false, lastOff := none }
      ∧ (keyed { holders := 0, pendingOn := false, due := false, lastOff := some 9961 }).sound 0 24
        = { holders := 0, pendingOn := false, due := false, lastOff := some 9961 }
      ∧ ((10000 : Frame) - 9961).toNat < map.repeatGap
      ∧ (after .windDrop (atStage .drop (following 10))).chest.sweeping .mute = true
      ∧ (keyed { holders := 1, pendingOn := true, due := false, lastOff := some 9961 }).sound 0 24
        = { holders := 1, pendingOn := true, due := false, lastOff := some 9961 }
      ∧ map.repeatGap ≤ ((10000 : Frame) - 9960).toNat ∧ idle.chest.sweep = none
      ∧ (idle.chest.division 3).enabled = false
      ∧ (compass 0 : Int) ≤ (61 : Nat) + (idle.chest.division 0).transpose := by decide

/-- Division 0 with coupler A an octave up to division 1 and coupler B at pitch to division 2. -/
def coupled : Chest :=
  { idle.chest with
    divisions := idle.chest.divisions.set 0
      { plainDivision 0x0003 false with
        couplerA := some { target := 1, offset := 12 }, couplerB := some { target := 2, offset := 0 } } }

theorem witness_NoteHoldsTaken_coupled :
    coupled.noteHolds 0 24
        = [{ division := 0, key := 24, coupled := false }, { division := 1, key := 36, coupled := true },
           { division := 2, key := 24, coupled := true }]
      ∧ ((coupled.noteHolds 0 24).map (fun x => (x.division, x.key))).Nodup ∧ coupled.sweep = none
      ∧ (∀ x ∈ coupled.noteHolds 0 24, (coupled.sound x.division x.key).holders = 0
          ∧ (coupled.sound x.division x.key).lastOff = none)
      ∧ (∀ x ∈ coupled.noteHolds 0 24,
          ((coupled.noteAction map 10000 0 24 true).1.sound x.division x.key).holders = 1
            ∧ ((coupled.noteAction map 10000 0 24 true).1.sound x.division x.key).pendingOn = false) := by
  decide
theorem test_coupled_writes :
    (coupled.noteAction map 10000 0 24 true).1.fifo.map (fun e => (e.address, e.stored))
      = [(8216, 0x0003), (8292, 0xFFFA), (8344, 0x0001)] := by decide

theorem witness_PendingOnDueThenWritten :
    (pendingKey 1 true 9960).loader.installed = some map ∧ (pendingKey 1 true 9960).tablesCanonical = true
      ∧ (pendingKey 1 true 9960).chest.firstDue = some (1, 24) ∧ (pendingKey 1 true 9960).path.waiting = none
      ∧ (pendingKey 1 true 9960).fifoCount < 16 ∧ (pendingKey 1 true 9960).releaseWaiting = false
      ∧ 16 ≤ (crowded 16 none).fifoCount := by decide
theorem witness_PendingOnDueThenWritten_waits :
    (holding [note 5 .noteOn 24 960] { following 960 with
      chest := { idle.chest with fifo := List.replicate 14 (fifoEntry 8192 true) } }).releaseWaiting = true := by
  decide

/-- A chest with a sweep or none, an on-write between two off-writes in the FIFO, and a key of division 0 that is held
and pending-on. -/
def mixed (w : Option Sweep) : Chest :=
  { keyed { holders := 2, pendingOn := true, due := true, lastOff := some 9961 } with
    sweep := w, fifo := [fifoEntry 8192 false, fifoEntry 8193 true, fifoEntry 8194 false],
    union := Divisions.single 1 }

/-- A sweep of a kind in its middle. -/
def midway (kind : SweepKind) : Sweep :=
  { kind := kind, set := Divisions.single 2, division := 2, key := 17, passed := false }

/-- The premises of Chest.afterMute and Chest.afterRevoice, and what they then say (O50, O51, O57). -/
theorem witness_afterMute (kind : SweepKind) :
    (mixed (some (midway kind))).sweep = some (midway kind) ∧ (midway kind).kind = kind
      ∧ (∀ w, (mixed none).sweep = some w → w.kind = .revoice)
      ∧ Table.wf SoundEntry.quiet (mixed none).sounding = true := by
  cases kind <;> exact ⟨rfl, rfl, nofun, by decide⟩
theorem test_mute_starts :
    ((mixed none).requestSweep .mute Divisions.all).sound 0 24
        = { holders := 2, pendingOn := false, due := false, lastOff := some 9961 }
      ∧ ((mixed (some (midway .revoice))).requestSweep .mute Divisions.all).fifo
        = [fifoEntry 8192 false, fifoEntry 8194 false]
      ∧ ((mixed (some (midway .mute))).requestSweep .mute Divisions.all).union = Divisions.none := by decide
theorem witness_afterRevoice :
    (idle.chest.division 3).enabled = false
      ∧ idle.chest.revoices (Divisions.join (Divisions.single 3) (Divisions.single 2)) 2
      ∧ (∀ e, e < (2 : Division) →
          ¬ idle.chest.revoices (Divisions.join (Divisions.single 3) (Divisions.single 2)) e)
      ∧ (∀ d, ¬ idle.chest.revoices (Divisions.single 3) d) := by
  unfold Chest.revoices; decide
theorem test_revoice_starts :
    ((mixed none).requestSweep .revoice (Divisions.single 3)).sweep.map (fun w => w.passed) = some true
      ∧ ((mixed (some (midway .revoice))).requestSweep .revoice (Divisions.single 1)).sweep
        = some { kind := .revoice, set := ⟨false, true, true, false⟩, division := 1, key := 0, passed := false }
      ∧ ((mixed (some (midway .mute))).requestSweep .revoice (Divisions.single 2)).union
        = ⟨false, true, true, false⟩
      ∧ (mixed (some (midway .off))).requestSweep .revoice (Divisions.single 2) = mixed (some (midway .off)) := by
  decide

/-- A sweep at the last key of a division. -/
def lastKey (kind : SweepKind) (d : Division) (set : Divisions) : Sweep :=
  { kind := kind, set := set, division := d, key := compass d - 1, passed := false }

theorem witness_SweepWriteQueued_divisions (kind : SweepKind) (d : Division) :
    compass d ≤ (lastKey kind d Divisions.all).key + 1
      ∧ idle.chest.revoices Divisions.all 1 ∧ ¬ idle.chest.revoices (Divisions.single 3) 3 := by
  unfold Chest.revoices; cases kind <;> (revert d; decide)
theorem test_sweep_divisions :
    idle.chest.sweepAdvance (lastKey .off 2 Divisions.all) = { lastKey .off 2 Divisions.all with division := 3, key := 0 }
      ∧ idle.chest.sweepAdvance (lastKey .revoice 0 ⟨true, false, true, true⟩)
        = { lastKey .revoice 0 ⟨true, false, true, true⟩ with division := 2, key := 0 }
      ∧ idle.chest.sweepAdvance (lastKey .revoice 2 Divisions.all)
        = { lastKey .revoice 2 Divisions.all with passed := true } := by decide

/-- A sweep at its last key but one of division 3, and one past its last key. -/
def walk (kind : SweepKind) (key : Nat) (passed : Bool) : Sweep :=
  { kind := kind, set := Divisions.all, division := 3, key := key, passed := passed }

theorem witness_SweepWriteQueued (kind : SweepKind) :
    (sweeping (walk kind 30 false) [] idle).path.waiting = none
      ∧ (sweeping (walk kind 30 false) [] idle).loader.installed = some map
      ∧ (sweeping (walk kind 30 false) [] idle).chest.sweep = some (walk kind 30 false)
      ∧ (walk kind 30 false).passed = false ∧ (sweeping (walk kind 30 false) [] idle).chest.firstDue = none
      ∧ (sweeping (walk kind 30 false) [] idle).fifoCount < 16
      ∧ (sweeping (walk kind 30 false) [] idle).releaseWaiting = false
      ∧ (walk kind 30 false).key + 1 < compass 3 ∧ compass 3 ≤ (walk kind 31 false).key + 1 := by
  cases kind <;> decide

/-- A due note ahead of the sweep, with 14 entries in the FIFO, and with 13 once the engine waits. -/
theorem witness_SweepWriteQueued_waits :
    (crowded 14 none).path.waiting = none ∧ (crowded 14 none).loader.installed = some map
      ∧ (crowded 14 none).release.hold = note 5 .noteOn 24 960 :: []
      ∧ (crowded 14 none).tracker.state.running = true
      ∧ (note 5 .noteOn 24 960).stamp * 65536 ≤ (crowded 14 none).tracker.position
      ∧ (crowded 14 none).matcher.waitStamp = none ∧ 14 ≤ (crowded 14 none).fifoCount
      ∧ (crowded 13 (some 5)).spaceWait = some (note 5 .noteOn 24 960).order := by decide

theorem witness_SweepEndTaken (kind : SweepKind) :
    (sweeping (walk kind 31 true) [] (inState .stopping idle)).path.waiting = none
      ∧ (sweeping (walk kind 31 true) [] (inState .stopping idle)).loader.installed = some map
      ∧ (sweeping (walk kind 31 true) [] (inState .stopping idle)).chest.sweep = some (walk kind 31 true)
      ∧ (walk kind 31 true).passed = true ∧ (walk kind 31 true).kind = kind
      ∧ (sweeping (walk kind 31 true) [] (inState .stopping idle)).tracker.state = .stopping
      ∧ (sweeping (walk kind 31 true) [] (inState .stopping idle)).loader.config = .configured
      ∧ (walk kind 31 false).passed = false := by
  cases kind <;> decide
/-- The part in a tracker state with the OFF sweep past its last key, in a configuration state, a load reading or
judged, mask 7 held for division 1 and a commit of pickup 2 noted. -/
def offPassed (st : TrackerState) (config : ConfigState) (load : Option (List Word)) : State :=
  let s := sweeping (walk .off 31 true) [] (inState st idle)
  { s with loader := { s.loader with
      config := config, load := load, heldMasks := s.loader.heldMasks.set 1 (some 7),
      noted := s.loader.noted.set 2 (some 3) } }

theorem witness_SweepEndTaken_loading (st : TrackerState) (config : ConfigState) (load : Option (List Word)) :
    (offPassed st config load).path.waiting = none ∧ (offPassed st config load).loader.installed = some map
      ∧ (offPassed st config load).chest.sweep = some (walk .off 31 true)
      ∧ (offPassed st config load).run.stage = .done ∧ (offPassed st config load).tracker.state = st
      ∧ (offPassed st config load).loader.config = config ∧ (offPassed st config load).loader.load = load
      ∧ (∃ e ∈ [({ fifoEntry 8192 true with sweep := true } : FifoEntry)], e.sweep = true) :=
  ⟨rfl, rfl, rfl, rfl, rfl, rfl, rfl, by decide⟩
theorem test_sweepEnd_configures :
    (after .sweepEnd (offPassed .idle .loading none)).loader.config = .configured
      ∧ ((after .sweepEnd (offPassed .idle .loading none)).chest.division 1).stopMask = 7
      ∧ (after .sweepEnd (offPassed .stopping .loading none)).loader.pickupList
        = [{ pickup := 2, carried := 3 }]
      ∧ (after .sweepEnd (offPassed .stopping .deferred none)).loader.load = some []
      ∧ (after .sweepEnd (offPassed .stopping .loading (some []))).loader.config = .loading := by decide
/-- A frame event that is not finished is finished first, and the hold timer starts whole (R144, log entry 28). -/
theorem test_sweepEnd_after_drop :
    (after .sweepEnd (atStage .drop (offPassed .stopping .configured none))).run.wind = .unconfirmed
      ∧ (after .sweepEnd (atStage .drop (offPassed .stopping .configured none))).run.hold = 30000 := by decide

theorem witness_ReportTakenOrLost :
    ({ idle with raised := [raisedMark] } : State).raised = raisedMark :: [] ∧ raisedMark.block = .release
      ∧ idle.report.queue.length < 16 ∧ 16 ≤ (List.replicate 16 raisedMark.record).length
      ∧ (after .start ready).run.startCounts = some (0, 0) ∧ (after .start ready).loader.installed ≠ none
      ∧ (∀ x ∈ (after .start ready).raised, x.block ≠ .run)
      ∧ (after .start ready).raised.map (fun x => x.record.report) = [.state .idle .winding .start]
      ∧ (after (.reportTaken .tracker) (after .start ready)).raised = []
      ∧ (after (.reportTaken .tracker) (after .start ready)).report.queue.length < 16 := by decide

/-- A RELEASE of slot 5 standing before a report of the tracker. -/
def behindRelease (r : Report) : State :=
  { idle with raised :=
      [{ block := .release, record := { report := .release 5 .tempo 0 0 0, frame := 10000, position := 960 } },
        { block := .tracker, record := { report := r, frame := 10000, position := 960 } }] }

/-- The tracker's TEMPO_SET waits for the RELEASE (R31), its RANGE_END does not; the matcher has raised nothing. -/
theorem witness_ReportTakenOrLost_pairs :
    (Report.release 5 .tempo 0 0 0).comesBefore (.tempoSet 5 1900 1920)
      ∧ (¬ (Report.release 5 .tempo 0 0 0).comesBefore (.rangeEnd 0 1920))
      ∧ (∀ x ∈ (behindRelease (.rangeEnd 0 1920)).raised, x.block ≠ .matcher)
      ∧ (behindRelease (.rangeEnd 0 1920)).raised.map (fun x => x.block) = [.release, .tracker] := by
  refine ⟨(Report.mustPrecede_iff _ _).1 (by decide), mt (Report.mustPrecede_iff _ _).2 (by decide), ?_, ?_⟩ <;>
    decide
theorem test_reportTaken_behind :
    after (.reportTaken .tracker) (behindRelease (.tempoSet 5 1900 1920))
        = behindRelease (.tempoSet 5 1900 1920)
      ∧ (after (.reportTaken .tracker) (behindRelease (.rangeEnd 0 1920))).report.queue.map (fun r => r.report)
        = [.rangeEnd 0 1920]
      ∧ (after (.reportTaken .tracker) (behindRelease (.rangeEnd 0 1920))).raised.map (fun x => x.block)
        = [.release]
      ∧ after (.reportTaken .matcher) (behindRelease (.rangeEnd 0 1920)) = behindRelease (.rangeEnd 0 1920) := by
  decide

/-- Records of some kinds, word by word (R178, R179). -/
theorem test_record_kinds :
    ({ report := .matched 4 (-24) 170 [2, 5], frame := 0x00012710, position := 960 } : Record).words
        = [0x0082, 0xFFE8, 170, 0x2710, 1, 960, 0, 0x0024]
      ∧ ({ report := .command (.written 1) .accepted none .idle 3 2, frame := 0, position := 0 } : Record).words
        = [0x0015, 1, 1, 0, 0, 0, 0, 0x0403]
      ∧ ({ report := .protectDrop 0x12345 7 .log, frame := 0, position := 0 } : Record).words
        = [0x0011, 0x2345, 0x0021, 0, 0, 0, 0, 7] := by decide

theorem witness_RecordWriteBegins :
    idle.path.waiting = none ∧ idle.loader.installed = some map ∧ idle.report.task = none
      ∧ idle.report.refreshDue = false
      ∧ (idle.report.producer + 1) % map.logCount ≠ idle.report.consumer ∧ idle.report.lostCount = 0
      ∧ 0 < ({ idle.report with lostCount := 1 } : ReportWriter).lostCount
      ∧ ({ idle.report with queue := [raisedMark.record] } : ReportWriter).queue = raisedMark.record :: []
      ∧ (({ idle.report with producer := 15 } : ReportWriter).producer + 1) % map.logCount
        = idle.report.consumer := by decide

theorem witness_RefreshBegins :
    ({ idle with report := { idle.report with refreshDue := true } } : State).path.waiting = none
      ∧ ({ idle with report := { idle.report with refreshDue := true } } : State).loader.installed = some map
      ∧ ({ idle.report with refreshDue := true } : ReportWriter).refreshDue = true
      ∧ idle.report.task = none ∧ bitNat true = 1 ∧ bitNat false = 0 := by decide

end Sys2Proof.Tests
end

section
/-! What the invariants of the collections speak of, gathered in one record (`Ledger`), the primitive changes that a
command can make to it (`Ledger.Move`), and what each change keeps. -/

namespace Sys2Proof.Machine

/-! ### The ledger of the collections -/

/-- The slot map with the collections it names, the sounding table, the chest write FIFO with the chest write that is
granted, the report queue with its loss counts, the pending write-backs and the listed pickups. -/
structure Ledger where
  slots      : Table SlotState
  list       : List AdmissionEntry
  fetch      : Option (List Word)
  hold       : List HoldEntry
  cues       : List CueEntry
  sounding   : Table SoundEntry
  fifo       : List FifoEntry
  granted    : Option (FifoEntry × Bool)
  queue      : List Record
  lostCount  : Nat
  lostTotal  : Nat
  writeBacks : List WriteBack
  pickups    : List PickupFetch

/-- The chest write on the port, and whether the FIFO still holds its entry. -/
def grantedWrite : Option PortAccess → Option (FifoEntry × Bool)
  | some (.chestWrite e live) => some (e, live)
  | _ => none

/-- The ledger of a state. -/
def State.ledger (s : State) : Ledger :=
  { slots := s.admission.slots, list := s.admission.list, fetch := s.admission.fetch,
    hold := s.release.hold, cues := s.matcher.cues, sounding := s.chest.sounding, fifo := s.chest.fifo,
    granted := grantedWrite s.path.port, queue := s.report.queue, lostCount := s.report.lostCount,
    lostTotal := s.report.lostTotal, writeBacks := s.path.writeBacks, pickups := s.loader.pickupList }

/-- The state of a slot. -/
def Ledger.slot (h : Ledger) (n : Nat) : SlotState := Table.get .free h.slots n

/-- Slot n heads the admission list. -/
def Ledger.heads (h : Ledger) (n : Nat) : Prop := ∃ e rest, h.list = e :: rest ∧ e.slot = n

/-- A granted write that the FIFO no longer holds counts as one entry (log entry 20). -/
def removedCount : Option (FifoEntry × Bool) → Nat
  | some (_, false) => 1
  | _ => 0

/-- The occupancy of the chest write FIFO. -/
def Ledger.count (h : Ledger) : Nat := h.fifo.length + removedCount h.granted

/-- The granted write after a sweep or a load has removed its entry: each one (`all`), or an on-write (R47). -/
def removeGranted (all : Bool) (g : Option (FifoEntry × Bool)) : Option (FifoEntry × Bool) :=
  g.map (fun x => (x.1, x.2 && !(all || x.1.on)))

/-- Slots set FREE one after another. -/
def freeAll (freed : List Nat) (slots : Table SlotState) : Table SlotState :=
  freed.foldl (fun m n => Table.set .free m n .free) slots

/-- Entries left a collection, and the slots of those that left are `freed`. -/
structure Gone {α : Type} (slotOf : α → Nat) (was now : List α) (freed : List Nat) : Prop where
  sub   : now.Sublist was
  left  : ∀ e ∈ was, e ∈ now ∨ slotOf e ∈ freed
  apart : (was.map slotOf).Nodup → ∀ e ∈ now, slotOf e ∉ freed

/-- One primitive change of the ledger, with the test under which a command makes it. That a slot to be listed is FREE
is known under C, which stands for a slot map in canonical form: there alone is a slot set FREE read back as FREE. -/
inductive Ledger.Move (C : Prop) (h : Ledger) : Ledger → Prop
  /-- A FREE slot is listed (R3). -/
  | listed (n : Nat) (v : Word) (hs : C → h.slot n = .free) (hl : h.list.length < Config.admissionCapacity) :
      h.Move C { h with
        list := h.list ++ [{ slot := n, commit := v }], slots := Table.set .free h.slots n .pending }
  /-- A listed slot takes a new commit word (R4). -/
  | recommitted (n : Nat) (v : Word) : h.Move C { h with list := admissionReplace n v h.list }
  /-- The fetch in progress has read these words (R6, R8). -/
  | fetched (ws : List Word) (hf : h.fetch ≠ none ∨ ∃ n, h.slot n = .fetching) :
      h.Move C { h with fetch := some ws }
  /-- The fetch of the list's head begins (R6). -/
  | begun (e : AdmissionEntry) (rest : List AdmissionEntry) (hl : h.list = e :: rest) (hf : h.fetch = none) :
      h.Move C { h with fetch := some [], slots := Table.set .free h.slots e.slot .fetching }
  /-- A PENDING slot leaves the list (R5). -/
  | unlisted (n : Nat) (hs : h.slot n = .pending) :
      h.Move C { h with list := admissionRemove n h.list, slots := Table.set .free h.slots n .free }
  /-- A FETCHING slot leaves the list, its fetch abandoned (R5, R9). -/
  | abandoned (n : Nat) (hs : h.slot n = .fetching) :
      h.Move C { h with
        list := admissionRemove n h.list, slots := Table.set .free h.slots n .free, fetch := none }
  /-- The fetched record is not placed (R7). -/
  | refused (e : AdmissionEntry) (rest : List AdmissionEntry) (hl : h.list = e :: rest) (hf : h.fetch ≠ none) :
      h.Move C { h with list := rest, fetch := none, slots := Table.set .free h.slots e.slot .free }
  /-- The fetched record takes its place in the hold queue (R13, R22). -/
  | noteAdmitted (e : AdmissionEntry) (rest : List AdmissionEntry) (x : HoldEntry) (hl : h.list = e :: rest)
      (hf : h.fetch ≠ none) (hx : x.slot = e.slot) (hc : h.hold.length < Config.holdCapacity) :
      h.Move C { h with
        list := rest, fetch := none, slots := Table.set .free h.slots e.slot .heldNote,
        hold := holdInsert x h.hold }
  /-- The fetched record takes its place in the cue list (R13, R98). -/
  | cueAdmitted (e : AdmissionEntry) (rest : List AdmissionEntry) (x : CueEntry) (hl : h.list = e :: rest)
      (hf : h.fetch ≠ none) (hx : x.slot = e.slot) (hc : h.cues.length < Config.cueCapacity) :
      h.Move C { h with
        list := rest, fetch := none, slots := Table.set .free h.slots e.slot .heldCue,
        cues := cueInsert x h.cues }
  /-- Entries leave the hold queue (R16, R23, R25, R33). -/
  | notesGone (now : List HoldEntry) (freed : List Nat) (hg : Gone HoldEntry.slot h.hold now freed)
      (hs : ∀ n ∈ freed, (∃ e ∈ h.hold, e.slot = n) ∨ h.slot n = .heldNote) :
      h.Move C { h with hold := now, slots := freeAll freed h.slots }
  /-- Cues leave the cue list (R16, R99, R103, R107, R110, R111, R130). -/
  | cuesGone (now : List CueEntry) (freed : List Nat) (hg : Gone CueEntry.slot h.cues now freed)
      (hs : ∀ n ∈ freed, (∃ e ∈ h.cues, e.slot = n) ∨ h.slot n = .heldCue) :
      h.Move C { h with cues := now, slots := freeAll freed h.slots }
  /-- A teardown, a load or RESET empties the slot map and its collections (R9, R18, R34, R112). -/
  | emptied : h.Move C { h with slots := [], list := [], fetch := none, hold := [], cues := [] }
  /-- A key's entry of the sounding table is written (R40 to R43). -/
  | sounded (k : Nat) (e : SoundEntry)
      (he : e.holders ≤ max Config.holderLimit (Table.get SoundEntry.quiet h.sounding k).holders) :
      h.Move C { h with sounding := Table.set SoundEntry.quiet h.sounding k e }
  /-- Every entry of the sounding table is mapped, no holder count rising (R43, R49, R50). -/
  | soundingMapped (f : SoundEntry → SoundEntry) (hf : ∀ e, (f e).holders ≤ e.holders) :
      h.Move C { h with sounding := Table.mapValues SoundEntry.quiet f h.sounding }
  /-- RESET empties the sounding table (R58). -/
  | soundingReset : h.Move C { h with sounding := [] }
  /-- A write is queued in a FIFO with a free entry (R26, R43, R46). -/
  | queued (x : FifoEntry) (hc : h.count < Config.fifoCapacity) : h.Move C { h with fifo := h.fifo ++ [x] }
  /-- The entries belong to no sweep (log entry 23). -/
  | untagged : h.Move C { h with fifo := untagged h.fifo }
  /-- The on-writes leave the FIFO (R47). -/
  | silenced : h.Move C { h with fifo := offWrites h.fifo, granted := removeGranted false h.granted }
  /-- A load empties the FIFO (R47, R158). -/
  | flushed : h.Move C { h with fifo := [], granted := removeGranted true h.granted }
  /-- The FIFO's head is granted the port (R44, R155). -/
  | headGranted (e : FifoEntry) (rest : List FifoEntry) (hf : h.fifo = e :: rest) (hg : h.granted = none) :
      h.Move C { h with granted := some (e, true) }
  /-- The port falls free (R154). -/
  | portFreed : h.Move C { h with granted := none }
  /-- The head's write is in memory (R44). -/
  | headWritten (hg : h.granted = none) : h.Move C { h with fifo := h.fifo.tail }
  /-- The report queue and the loss counts change within their limits (R165, R168, R174). -/
  | reported (q : List Record) (m n : Nat) (hq : q.length ≤ max Config.reportCapacity h.queue.length)
      (hm : m ≤ max Config.lostLimit h.lostCount) (hn : n ≤ max Config.lostLimit h.lostTotal) :
      h.Move C { h with queue := q, lostCount := m, lostTotal := n }
  /-- A write-back is requested (R54). -/
  | writeBackAsked (d : Division) (mask : Word) :
      h.Move C { h with writeBacks := writeBackRequest d mask h.writeBacks }
  /-- Write-backs leave their list (R55, R156, R158). -/
  | writeBacksFewer (l : List WriteBack) (hl : l.Sublist h.writeBacks) : h.Move C { h with writeBacks := l }
  /-- A pickup is listed for its fetch (R163). -/
  | pickupAsked (k : PickupNo) (v : Word) : h.Move C { h with pickups := pickupListAdd k v h.pickups }
  /-- The pickups of the noted commits are listed (R160, R161). -/
  | pickupsNoted (noted : Vector (Option Word) 12) : h.Move C { h with pickups := notedFetches noted }
  /-- Pickups leave their list (R158, R163). -/
  | pickupsFewer (l : List PickupFetch) (hl : l.Sublist h.pickups) : h.Move C { h with pickups := l }

/-! ### How entries leave a collection -/

variable {α : Type} {slotOf : α → Nat}

/-- The entries of one slot leave. -/
theorem Gone.remove (was : List α) (n : Nat) : Gone slotOf was (was.filter (fun e => slotOf e != n)) [n] where
  sub := List.filter_sublist
  left e he := by by_cases h : slotOf e = n <;> simp [h, he]
  apart _ e he := by simpa using (List.mem_filter.1 he).2

/-- The entries at the front leave. -/
theorem Gone.front (gone now : List α) : Gone slotOf (gone ++ now) now (gone.map slotOf) where
  sub := List.sublist_append_right _ _
  left e he := by
    rcases List.mem_append.1 he with h | h
    · exact .inr (List.mem_map_of_mem h)
    · exact .inl h
  apart hn e he hm := by
    rw [List.map_append] at hn
    exact (List.nodup_append.1 hn).2.2 _ hm _ (List.mem_map_of_mem he) rfl

/-- The entries that fail a test leave. -/
theorem Gone.filter (was : List α) {p q : α → Bool} (h : ∀ e, q e = !p e) :
    Gone slotOf was (was.filter p) ((was.filter q).map slotOf) where
  sub := List.filter_sublist
  left e he := by
    cases hp : p e
    · exact .inr (List.mem_map_of_mem (List.mem_filter.2 ⟨he, by rw [h, hp]; rfl⟩))
    · exact .inl (List.mem_filter.2 ⟨he, hp⟩)
  apart hn e he hm := by
    obtain ⟨x, hx, hxe⟩ := List.mem_map.1 hm
    obtain ⟨hx, hqx⟩ := List.mem_filter.1 hx
    obtain ⟨he, hpe⟩ := List.mem_filter.1 he
    have := List.inj_on_of_nodup_map hn hx he hxe
    rw [this, h, hpe] at hqx
    cases hqx

/-- No entry leaves. -/
theorem Gone.none (was : List α) : Gone slotOf was was [] where
  sub := List.Sublist.refl _
  left _ he := .inl he
  apart _ _ _ := List.not_mem_nil

/-! ### The slot map after a change -/

/-- A value other than the default is read back, in canonical form or not. -/
theorem Table.get_set_value {β : Type} [DecidableEq β] {d v : β} (t : Table β) (a : Nat) (hv : v ≠ d) :
    Table.get d (Table.set d t a v) a = v := by
  induction t with
  | nil => simp [Table.set, Table.get, hv]
  | cons e t ih =>
    obtain ⟨k, w⟩ := e
    rcases Nat.lt_trichotomy a k with h | h | h
    · simp [Table.set, Table.get, h, hv]
    · simp [Table.set, Table.get, h, hv]
    · simp [Table.set, Table.get, Nat.lt_asymm h, Nat.ne_of_gt h, Nat.ne_of_lt h, ih]

/-- A read of a table after a write, by key. -/
theorem Table.get_set {β : Type} [DecidableEq β] {d : β} {t : Table β} (h : Table.wf d t = true) (a b : Nat) (v : β) :
    Table.get d (Table.set d t a v) b = if b = a then v else Table.get d t b := by
  by_cases hb : b = a
  · subst hb; simp [Table.get_set_same t b v h]
  · simp [hb, Table.get_set_other t v hb]

theorem freeAll_wf (freed : List Nat) {slots : Table SlotState} (h : Table.wf .free slots = true) :
    Table.wf .free (freeAll freed slots) = true := by
  induction freed generalizing slots with
  | nil => exact h
  | cons n l ih => exact ih (Table.wf_set slots n .free h)

/-- The freed slots read FREE, every other as before. -/
theorem freeAll_get (freed : List Nat) {slots : Table SlotState} (h : Table.wf .free slots = true) (n : Nat) :
    Table.get .free (freeAll freed slots) n = if n ∈ freed then .free else Table.get .free slots n := by
  induction freed generalizing slots with
  | nil => rfl
  | cons a l ih =>
    show Table.get .free (freeAll l (Table.set .free slots a .free)) n = _
    rw [ih (Table.wf_set slots a .free h), Table.get_set h]
    by_cases hl : n ∈ l <;> by_cases ha : n = a <;> simp [hl, ha]

end Sys2Proof.Machine
end

section
/-! What each operation of the model can do to the ledger of the collections: nothing, or primitive changes one after
another. -/

namespace Sys2Proof.Machine

/-- State t's ledger follows from state s's by primitive changes. -/
def State.Leads (C : Prop) (s t : State) : Prop := Relation.ReflTransGen (Ledger.Move C) s.ledger t.ledger

variable {C : Prop}

theorem State.Leads.refl (s : State) : s.Leads C s := Relation.ReflTransGen.refl

theorem State.Leads.same {s t : State} (h : t.ledger = s.ledger) : s.Leads C t := by
  unfold State.Leads; rw [h]

theorem State.Leads.trans {s t u : State} (h : s.Leads C t) (k : t.Leads C u) : s.Leads C u :=
  Relation.ReflTransGen.trans h k

theorem State.Leads.move {s t : State} (h : s.ledger.Move C t.ledger) : s.Leads C t :=
  Relation.ReflTransGen.single h

/-- Primitive changes read the ledger alone. -/
theorem State.Leads.from {s t u : State} (h : t.Leads C u) (k : t.ledger = s.ledger) : s.Leads C u :=
  (State.Leads.same k).trans h

/-- Primitive changes read the ledger alone. -/
theorem State.Leads.to {s t u : State} (h : s.Leads C t) (k : u.ledger = t.ledger) : s.Leads C u :=
  h.trans (State.Leads.same k)

theorem Ledger.Move.to {h k l : Ledger} (m : h.Move C k) (e : l = k) : h.Move C l := e ▸ m

/-! ### Operations that leave the ledger alone -/

@[simp] theorem State.raise_ledger (b : Block) (r : Report) (s : State) : (s.raise b r).ledger = s.ledger := by
  unfold State.raise; split <;> rfl

@[simp] theorem State.raiseAll_ledger (b : Block) (l : List Report) (s : State) :
    (State.raiseAll b l s).ledger = s.ledger := by
  induction l generalizing s with
  | nil => rfl
  | cons r l ih => simp [State.raiseAll, ih]

@[simp] theorem State.commandReport_ledger (v : Word) (x : CommandResult) (y : Option CommandReason)
    (t : TrackerState) (m n : Nat) (s : State) : (s.commandReport v x y t m n).ledger = s.ledger :=
  State.raise_ledger _ _ _

@[simp] theorem State.bringCounts_ledger (s : State) : s.bringCounts.ledger = s.ledger := by
  unfold State.bringCounts; split
  · rfl
  · exact State.commandReport_ledger ..

@[simp] theorem State.demandRefresh_ledger (s : State) : s.demandRefresh.ledger = s.ledger := by
  unfold State.demandRefresh; split <;> rfl

@[simp] theorem State.setConfig_ledger (c : ConfigState) (s : State) : (s.setConfig c).ledger = s.ledger := by
  unfold State.setConfig; split
  · rfl
  · exact State.demandRefresh_ledger _

@[simp] theorem State.noteEmptied_ledger (c : StarvedCause) (n : Option Nat) (s : State) :
    (s.noteEmptied c n).ledger = s.ledger := by
  unfold State.noteEmptied; split
  · exact State.raise_ledger _ _ _
  · rfl

theorem Matcher.announce_cues (old new : TrackerState) (m : Matcher) : (m.announce old new).cues = m.cues := by
  unfold Matcher.announce; dsimp only; split <;> split <;> rfl

@[simp] theorem State.announce_ledger (n : TrackerState) (c : StateCause) (s : State) :
    (s.announce n c).ledger = s.ledger := by
  unfold State.announce
  rw [State.demandRefresh_ledger, ← State.raise_ledger .tracker (.state s.tracker.state n c) s]
  simp only [State.ledger, Matcher.announce_cues]

@[simp] theorem State.discardFetch_ledger (s : State) : s.discardFetch.ledger = s.ledger := by
  simp only [State.ledger, State.discardFetch]
  congr 1
  split <;> simp_all [grantedWrite]

@[simp] theorem State.postFetch_ledger (s : State) : s.postFetch.ledger = s.ledger := by
  unfold State.postFetch; split
  · split <;> rfl
  · rfl

@[simp] theorem State.countYield_ledger (s : State) : s.countYield.ledger = s.ledger := by
  unfold State.countYield; split <;> rfl

@[simp] theorem State.drop_ledger (a : Nat) (v : Word) (r : DropRegion) (s : State) :
    (s.drop a v r).ledger = s.ledger := State.raise_ledger _ _ _

@[simp] theorem State.recomputeLag_ledger (s : State) : s.recomputeLag.ledger = s.ledger := by
  unfold State.recomputeLag; split <;> rfl

@[simp] theorem State.frameRefresh_ledger (s : State) : s.frameRefresh.ledger = s.ledger := by
  unfold State.frameRefresh; split
  · exact State.demandRefresh_ledger s
  · rfl

@[simp] theorem State.releaseReport_ledger (i : Installed) (e : HoldEntry) (s : State) :
    (s.releaseReport i e).ledger = s.ledger := by
  unfold State.releaseReport; split
  · exact State.raise_ledger _ _ _
  · rfl

@[simp] theorem State.reportsFor_ledger (b : Block) (s : State) : (s.reportsFor b).ledger = s.ledger := by
  unfold State.reportsFor; split
  · exact State.bringCounts_ledger s
  · rfl

@[simp] theorem State.consumerWrite_ledger (v : Word) (s : State) : (s.consumerWrite v).ledger = s.ledger := by
  unfold State.consumerWrite ReportWriter.writeConsumer; split
  · rfl
  · split <;> rfl

@[simp] theorem State.finishReportWrite_ledger (s : State) : s.finishReportWrite.ledger = s.ledger := by
  unfold State.finishReportWrite ReportWriter.wordDone
  split
  · rfl
  · split
    · rfl
    · split
      · rfl
      · split <;> rfl

/-! ### The chest writer and the port (R44, R47, R52) -/

theorem grantedWrite_abandon (all : Bool) (p : Option PortAccess) :
    grantedWrite (abandonChestWrite all p) = removeGranted all (grantedWrite p) := by
  unfold abandonChestWrite; split
  · rfl
  · next h => cases p with
    | none => rfl
    | some a => cases a <;> simp_all [grantedWrite, removeGranted]

theorem grantedWrite_abandonForLoad (p : Option PortAccess) :
    grantedWrite (abandonForLoad p) = removeGranted true (grantedWrite p) := by
  unfold abandonForLoad; split
  · rfl
  · rfl
  · exact grantedWrite_abandon true p

/-- The occupancy of the FIFO is read off the ledger. -/
theorem State.fifoCount_eq (s : State) : s.fifoCount = s.ledger.count := by
  unfold State.fifoCount MemPath.removedWrite Ledger.count State.ledger grantedWrite
  cases s.path.port with
  | none => rfl
  | some a => cases a with
    | chestWrite e live => cases live <;> rfl
    | _ => rfl

/-- A sweep request: what silences the chest removes the on-writes; the rest at most leaves entries without their
mark (R47, R52). -/
theorem State.requestSweep_leads (k : SweepKind) (set : Divisions) (s : State) : s.Leads C (s.requestSweep k set) := by
  have off : ∀ f : SoundEntry → SoundEntry, (∀ e, (f e).holders ≤ e.holders) → ∀ t : State,
      t.ledger = { s.ledger with
        sounding := Table.mapValues SoundEntry.quiet f s.chest.sounding, fifo := offWrites s.chest.fifo,
        granted := removeGranted false (grantedWrite s.path.port) } → s.Leads C t := by
    intro f hf t ht
    have h2 := Ledger.Move.soundingMapped (C := C) (h := { s.ledger with
      fifo := offWrites s.chest.fifo, granted := removeGranted false (grantedWrite s.path.port) }) f hf
    exact (Relation.ReflTransGen.single Ledger.Move.silenced).tail (ht ▸ h2)
  have forget : ∀ e : SoundEntry, e.forget.holders ≤ e.holders := fun e => Nat.zero_le _
  have unpend : ∀ e : SoundEntry, e.unpend.holders ≤ e.holders := fun e => Nat.le_refl _
  have hg := grantedWrite_abandon false s.path.port
  cases k with
  | off =>
    refine off _ forget _ ?_
    simp [State.requestSweep, Chest.silences, Chest.requestSweep, Chest.startOff, State.ledger, hg]
  | mute =>
    cases hw : s.chest.sweep with
    | none =>
      refine off _ unpend _ ?_
      simp [State.requestSweep, Chest.silences, Chest.sweeping, Chest.requestSweep, Chest.startMute, State.ledger, hw, hg]
    | some w =>
      cases hk : w.kind with
      | revoice =>
        refine off _ unpend _ ?_
        simp [State.requestSweep, Chest.silences, Chest.sweeping, Chest.requestSweep, Chest.startMute, State.ledger, hw,
          hk, hg]
      | off | mute =>
        refine .same ?_
        simp [State.requestSweep, Chest.silences, Chest.sweeping, Chest.requestSweep, State.ledger, hw, hk]
  | revoice =>
    rw [State.requestSweep_revoice]
    cases hw : s.chest.sweep with
    | none =>
      refine .move ((Ledger.Move.untagged (C := C) (h := s.ledger)).to ?_)
      simp [Chest.requestSweep, Chest.startRevoice, State.ledger, hw]
    | some w =>
      cases hk : w.kind with
      | revoice =>
        refine .move ((Ledger.Move.untagged (C := C) (h := s.ledger)).to ?_)
        simp [Chest.requestSweep, Chest.startRevoice, State.ledger, hw, hk]
      | off | mute =>
        refine .same ?_
        simp [Chest.requestSweep, State.ledger, hw, hk]

theorem State.maskChange_leads (d : Division) (mask : Word) (s : State) : s.Leads C (s.maskChange d mask) := by
  unfold State.maskChange; dsimp only; split
  · exact (State.requestSweep_leads _ _ _).from rfl
  · exact .same rfl

/-! ### Slots, teardown and load -/

/-- Cues leave the cue list and their slots become FREE, with whatever leaves the ledger alone between (R16). -/
theorem State.Leads.cuesGone {s t : State} (now : List CueEntry) (freed : List Nat)
    (hg : Gone CueEntry.slot s.matcher.cues now freed)
    (hs : ∀ n ∈ freed, (∃ e ∈ s.matcher.cues, e.slot = n) ∨ s.slot n = .heldCue)
    (ht : t.ledger = { s.ledger with cues := now }) : s.Leads C (t.freeSlots freed) := by
  refine .move ((Ledger.Move.cuesGone (h := s.ledger) now freed hg hs).to ?_)
  have hslots : t.admission.slots = s.admission.slots := congrArg Ledger.slots ht
  rw [State.freeSlots_fold]
  exact (congrArg (fun h => { h with slots := freeAll freed t.admission.slots }) ht).trans (by rw [hslots])

/-- Entries leave the hold queue and their slots become FREE (R16). -/
theorem State.Leads.notesGone {s t : State} (now : List HoldEntry) (freed : List Nat)
    (hg : Gone HoldEntry.slot s.release.hold now freed)
    (hs : ∀ n ∈ freed, (∃ e ∈ s.release.hold, e.slot = n) ∨ s.slot n = .heldNote)
    (ht : t.ledger = { s.ledger with hold := now }) : s.Leads C (t.freeSlots freed) := by
  refine .move ((Ledger.Move.notesGone (h := s.ledger) now freed hg hs).to ?_)
  have hslots : t.admission.slots = s.admission.slots := congrArg Ledger.slots ht
  rw [State.freeSlots_fold]
  exact (congrArg (fun h => { h with slots := freeAll freed t.admission.slots }) ht).trans (by rw [hslots])

/-- The start of a load (R158). -/
theorem State.loadStart_leads (s : State) : s.Leads C s.loadStart := by
  have h1 : s.ledger.Move C { s.ledger with slots := [], list := [], fetch := none, hold := [], cues := [] } := .emptied
  have hl : s.loadStart.ledger = { s.ledger with
      slots := [], list := [], fetch := none, hold := [], cues := [], fifo := [],
      granted := removeGranted true s.ledger.granted, pickups := [], writeBacks := [] } := by
    have hc : ((s.setConfig .loading).discardFetch).ledger = s.ledger := by simp
    have hg : grantedWrite (s.setConfig .loading).discardFetch.path.port = grantedWrite s.path.port :=
      congrArg Ledger.granted hc
    simp only [← hc]
    simp [State.ledger, State.loadStart, State.storeWaitStamp, Loader.begin, Matcher.clear, Chest.loadStart,
      State.clearHold, State.clearAdmission, grantedWrite_abandonForLoad]
  exact (((Relation.ReflTransGen.single h1).tail .flushed).tail (.pickupsFewer [] (List.nil_sublist _))).tail
    ((Ledger.Move.writeBacksFewer [] (List.nil_sublist _)).to hl)

/-- The teardown at the entry to STOPPING (R9, R18, R34, R112). -/
theorem State.teardown_leads (s : State) : s.Leads C s.teardown :=
  .trans (.trans (.same s.discardFetch_ledger) (.move .emptied)) (State.requestSweep_leads .off Divisions.all
    ({ s.clearAdmission.clearHold with matcher := s.clearAdmission.clearHold.matcher.clear } : State).storeWaitStamp)

/-! ### Changes of tracker state (R115) -/

theorem State.beginRun_leads (b : Bool) (s : State) : s.Leads C (s.beginRun b) := by
  refine .to ?_ (State.noteEmptied_ledger _ _ _)
  split
  · exact State.requestSweep_leads _ _ _
  · exact .refl s

theorem State.changeState_leads (n : TrackerState) (c : StateCause) (s : State) : s.Leads C (s.changeState n c) := by
  have ha := s.announce_ledger n c
  unfold State.changeState
  cases n with
  | stopping => exact (State.teardown_leads _).from ha
  | halted => exact (State.requestSweep_leads _ _ _).from ha
  | leading =>
    dsimp only; split
    · exact (State.beginRun_leads _ _).from ha
    · exact .same ha
  | idle =>
    dsimp only; split
    · exact (State.loadStart_leads _).from ha
    · exact .same ha
  | winding | following | coasting | waiting => exact .same ha

theorem State.changeAll_leads (l : List (TrackerState × StateCause)) (s : State) :
    s.Leads C (State.changeAll l s) := by
  induction l generalizing s with
  | nil => exact .refl s
  | cons c l ih => exact (State.changeState_leads _ _ _).trans (ih _)

theorem State.applyTracker_leads (r : TrackerResult) (s : State) : s.Leads C (s.applyTracker r) :=
  (State.changeAll_leads _ _).from (State.raiseAll_ledger _ _ _)

/-! ### The cue matcher's results (R16, R100, R121) -/

theorem Matcher.stopTimer_cues (m : Matcher) : m.stopTimer.cues = m.cues := by
  unfold Matcher.stopTimer; split <;> rfl

theorem State.deliver_leads (m : Option Message) (s : State) : s.Leads C (s.deliver m) := by
  unfold State.deliver; dsimp only; split
  · exact .refl s
  · refine (State.applyTracker_leads _ _).from ?_
    split
    · rfl
    · simp only [State.ledger, Matcher.stopTimer_cues]

/-- What a result of the matcher takes out of the cue list, and the slots it sets FREE. -/
def MatcherResult.Leaves (m : Matcher) (r : MatcherResult) : Prop :=
  Gone CueEntry.slot m.cues r.matcher.cues r.freed ∧ ∀ n ∈ r.freed, ∃ e ∈ m.cues, e.slot = n

theorem State.applyMatcher_leads {r : MatcherResult} {s : State} (h : r.Leaves s.matcher) :
    s.Leads C (s.applyMatcher r) := by
  refine .trans (.cuesGone r.matcher.cues r.freed h.1 (fun n hn => .inl (h.2 n hn)) ?_) (State.deliver_leads _ _)
  exact State.raiseAll_ledger _ _ _

theorem MatcherResult.Leaves.plain {m n : Matcher} (h : n.cues = m.cues) :
    (MatcherResult.plain n).Leaves m := by
  refine ⟨?_, nofun⟩
  show Gone _ m.cues n.cues []
  rw [h]; exact .none _

/-- One cue leaves. -/
theorem MatcherResult.Leaves.one {m : Matcher} {r : MatcherResult} {e : CueEntry} (he : e ∈ m.cues)
    (hc : r.matcher.cues = cueRemove e.slot m.cues) (hf : r.freed = [e.slot]) : r.Leaves m := by
  refine ⟨?_, ?_⟩
  · rw [hc, hf]; exact .remove _ _
  · rw [hf]; intro n hn; exact ⟨e, he, (List.mem_singleton.1 hn).symm⟩

theorem cueSplit_spec {p : CueEntry → Bool} {q ahead : List CueEntry} {e : CueEntry}
    (h : cueSplit p q = some (ahead, e)) : q = (ahead ++ [e]) ++ cuesAfter ahead q := by
  induction q generalizing ahead with
  | nil => cases h
  | cons x q ih =>
    unfold cueSplit at h
    split at h
    · cases h; rfl
    · split at h
      · cases h
      · next _ y c hy => cases h; exact congrArg (x :: ·) (ih hy)

/-- The cues up to a matched one leave. -/
theorem MatcherResult.Leaves.upTo {m : Matcher} {r : MatcherResult} {p : CueEntry → Bool} {ahead : List CueEntry}
    {e : CueEntry} (h : cueSplit p m.cues = some (ahead, e)) (hc : r.matcher.cues = cuesAfter ahead m.cues)
    (hf : r.freed = matchFreed ahead e) : r.Leaves m := by
  have hq := cueSplit_spec h
  have hf' : r.freed = (ahead ++ [e]).map CueEntry.slot := by rw [hf]; simp [matchFreed]
  refine ⟨?_, ?_⟩
  · have := Gone.front (slotOf := CueEntry.slot) (ahead ++ [e]) (cuesAfter ahead m.cues)
    rwa [← hq, ← hc, ← hf'] at this
  · intro n hn
    rw [hf'] at hn
    obtain ⟨x, hx, rfl⟩ := List.mem_map.1 hn
    exact ⟨x, hq ▸ List.mem_append_left _ hx, rfl⟩

theorem Matcher.matchWindow_leaves (b : Bool) (n : Nat) (o : FusedOnset) (m : Matcher) :
    (m.matchWindow b n o).Leaves m := by
  unfold Matcher.matchWindow
  split
  · exact .plain (n := m) rfl
  · next h => exact .upTo h rfl rfl

theorem Matcher.matchWait_leaves (n : Nat) (o : FusedOnset) (m : Matcher) : (m.matchWait n o).Leaves m := by
  unfold Matcher.matchWait
  split
  · exact Matcher.matchWindow_leaves _ _ _ _
  · next h => exact .upTo h rfl rfl

theorem Matcher.takeFused_leaves (n : Nat) (o : FusedOnset) (m : Matcher) : (m.takeFused n o).Leaves m := by
  unfold Matcher.takeFused
  split
  · exact .plain rfl
  · exact .plain rfl
  · exact .plain rfl
  · exact .plain rfl
  · exact Matcher.matchWindow_leaves _ _ _ _
  · exact Matcher.matchWindow_leaves _ _ _ _
  · exact Matcher.matchWindow_leaves _ _ _ _
  · exact Matcher.matchWait_leaves _ _ _

theorem Matcher.expireWait_leaves (n : Nat) (m : Matcher) : (m.expireWait n).Leaves m := by
  unfold Matcher.expireWait
  split
  · exact .plain rfl
  · next e h => exact .one (List.mem_of_find?_eq_some h) rfl rfl

theorem Matcher.expireOne_leaves {n t : Nat} {m : Matcher} {r : MatcherResult} (h : m.expireOne n t = some r) :
    r.Leaves m := by
  unfold Matcher.expireOne at h
  split at h
  · cases h
  · next e he => cases h; exact .one (List.mem_of_find?_eq_some he) rfl rfl

theorem Matcher.clearStale_leaves (n : Nat) (m : Matcher) : (m.clearStale n).Leaves m := by
  refine ⟨.filter _ (fun e => (Bool.not_not _).symm), fun x hx => ?_⟩
  obtain ⟨e, he, rfl⟩ := List.mem_map.1 hx
  exact ⟨e, (List.mem_filter.1 he).1, rfl⟩

theorem State.takeFused_leads (o : Option FusedOnset) (s : State) : s.Leads C (s.takeFused o) := by
  unfold State.takeFused
  split
  · exact .refl s
  · exact State.applyMatcher_leads (Matcher.takeFused_leaves _ _ _)

theorem State.takeOnset_leads (o : Option Onset) (s : State) : s.Leads C (s.takeOnset o) := by
  unfold State.takeOnset
  split
  · exact (State.takeFused_leads _ _).from rfl
  · exact .refl s

theorem State.applyPickup_leads (k : PickupNo) (r : PickupResult) (s : State) : s.Leads C (s.applyPickup k r) := by
  refine (State.takeOnset_leads _ _).from ((State.recomputeLag_ledger _).trans ?_)
  split
  · exact State.raise_ledger _ _ _
  · rfl

/-! ### The arbiter and the fetch (R6, R155) -/

/-- A part request for a chest write is the FIFO's head (R44, R155). -/
theorem State.partRequest_chest {s : State} {e : FifoEntry} {live : Bool}
    (h : s.partRequest = some (.chestWrite e live)) : live = true ∧ ∃ rest, s.chest.fifo = e :: rest := by
  refine ⟨s.partRequest_live e live h, ?_⟩
  unfold State.partRequest at h
  cases hf : s.chest.fifo with
  | cons x rest => simp_all
  | nil =>
    exfalso
    simp only [hf] at h
    split at h
    · cases h
    · split at h
      · next a ha =>
        cases h
        unfold State.anchorRequest at ha
        split at ha
        · cases ha
        · split at ha <;> simp at ha
      · split at h
        · cases h
        · unfold ReportWriter.request at h
          split at h <;> simp at h

/-- A grant puts on a free port what the part requests: the FIFO's head, or no chest write (R155). -/
theorem State.grant_leads {a : PortAccess} {s t : State} (ht : t.ledger = s.ledger) (hp : s.path.port = none)
    (ha : ∀ e live, a = .chestWrite e live → live = true ∧ ∃ rest, s.chest.fifo = e :: rest) :
    s.Leads C (t.grant a) := by
  refine .trans (.same ht) ?_
  cases a with
  | chestWrite e live =>
    obtain ⟨rfl, rest, hf⟩ := ha e live rfl
    refine .move (.headGranted e rest ((congrArg Ledger.fifo ht).trans hf) ((congrArg Ledger.granted ht).trans ?_))
    simp [State.ledger, hp, grantedWrite]
  | writeBack n v =>
    exact .tail (.single .portFreed) (.writeBacksFewer _ (List.tail_sublist t.path.writeBacks))
  | fetchRead | anchorRead | pickupRead | reportWrite | procRead | procWrite => exact .move .portFreed

theorem State.grantPart_leads {s : State} (hp : s.path.port = none) : s.Leads C s.grantPart := by
  unfold State.grantPart
  split
  · exact .refl s
  · exact .refl s
  · next a _ ha =>
    exact State.grant_leads s.countYield_ledger hp fun e live h => State.partRequest_chest (h ▸ ha)

theorem State.raise_path (b : Block) (r : Report) (s : State) : (s.raise b r).path = s.path := by
  unfold State.raise; split <;> rfl

theorem State.grantProcessor_leads {s : State} (a : ProcAccess) (hp : s.path.port = none) :
    s.Leads C (s.grantProcessor a) := by
  unfold State.grantProcessor
  split
  · exact .move .portFreed
  · split
    · next r _ =>
      refine (State.grantPart_leads ?_).from (State.drop_ledger _ _ r s.takeWaiting)
      show (State.drop _ _ r s.takeWaiting).path.port = none
      unfold State.drop
      rw [State.raise_path]
      exact hp
    · exact .move .portFreed

theorem State.arbitrate_leads (s : State) : s.Leads C s.arbitrate := by
  unfold State.arbitrate
  split
  · exact .refl s
  · next hp =>
    have hp : s.path.port = none := by simpa using hp
    split
    · exact State.grantPart_leads hp
    · split
      · exact State.grantProcessor_leads _ hp
      · exact State.grantPart_leads hp

theorem State.beginFetch_leads (s : State) : s.Leads C s.beginFetch := by
  unfold State.beginFetch
  split
  · exact .refl s
  · next e rest he =>
    split
    · next hc => exact .move (.begun e rest he (by simp at hc; exact hc.2))
    · exact .refl s

theorem State.pump_leads (s : State) : s.Leads C s.pump :=
  (State.beginFetch_leads s).trans (((State.arbitrate_leads _).from (State.postFetch_ledger _)).to rfl)

theorem State.grantWriteBack_leads (s : State) : s.Leads C s.grantWriteBack := by
  unfold State.grantWriteBack
  split
  · next hp _ => exact State.grant_leads s.countYield_ledger hp nofun
  · exact .refl s

/-! ### The admission unit (chapter 1) -/

/-- A fetch with a FETCHING slot is restarted (R8). -/
theorem State.restartFetch_leads {s : State} {n : Nat} (h : s.slot n = .fetching) : s.Leads C s.restartFetch := by
  have hd := s.discardFetch_ledger
  exact .trans (.same hd) (.move (.fetched [] (.inr ⟨n, (congrArg (fun l => Ledger.slot l n) hd).trans h⟩)))

theorem State.listSlot_leads {s : State} {n : Nat} (v : Word) (h : C → s.slot n = .free) : s.Leads C (s.listSlot n v) := by
  unfold State.listSlot
  split
  · exact .same (State.raise_ledger _ _ _)
  · next hc => exact .move (.listed n v h (Nat.lt_of_not_le hc))

theorem State.withdrawNote_leads {s : State} {n : Nat} (h : s.slot n = .heldNote) : s.Leads C (s.withdrawNote n) := by
  have hm : s.ledger.Move C { s.ledger with
      hold := holdRemove n s.release.hold, slots := Table.set .free s.admission.slots n .free } :=
    .notesGone _ [n] (.remove _ n) (fun m hm => .inr (List.mem_singleton.1 hm ▸ h))
  unfold State.withdrawNote
  split
  · next hf =>
    refine .move (hm.to ?_)
    have : holdRemove n s.release.hold = s.release.hold :=
      List.filter_eq_self.2 (by simpa using List.find?_eq_none.1 hf)
    rw [this]; rfl
  · refine .to (.move (t := { s.setSlot n .free with release := { (s.setSlot n .free).release with
      hold := holdRemove n (s.setSlot n .free).release.hold } }) hm) ?_
    simp

theorem State.withdrawCue_leads {s : State} {n : Nat} (h : s.slot n = .heldCue) : s.Leads C (s.withdrawCue n) := by
  have hm : s.ledger.Move C { s.ledger with
      cues := cueRemove n s.matcher.cues, slots := Table.set .free s.admission.slots n .free } :=
    .cuesGone _ [n] (.remove _ n) (fun m hm => .inr (List.mem_singleton.1 hm ▸ h))
  unfold State.withdrawCue
  split
  · next hf =>
    refine .move (hm.to ?_)
    have : cueRemove n s.matcher.cues = s.matcher.cues :=
      List.filter_eq_self.2 (by simpa using List.find?_eq_none.1 hf)
    rw [this]; rfl
  · exact .trans (.to (.move (t := { s.setSlot n .free with
      matcher := (s.setSlot n .free).matcher.withdraw n }) hm) (State.raise_ledger _ _ _)) (State.deliver_leads _ _)

theorem State.editSlot_leads (n : Nat) (s : State) : s.Leads C (s.editSlot n) := by
  unfold State.editSlot
  split
  · exact .refl s
  · exact .refl s
  · next h => exact State.restartFetch_leads h
  · next h => exact State.withdrawNote_leads h
  · next h => exact State.withdrawCue_leads h

theorem State.emptySlot_leads (n : Nat) (s : State) : s.Leads C (s.emptySlot n) := by
  unfold State.emptySlot
  split
  · exact .refl s
  · next h => exact .move (.unlisted n h)
  · next h =>
    have hd := s.discardFetch_ledger
    exact .trans (.same hd) (.move (.abandoned n ((congrArg (fun l => Ledger.slot l n) hd).trans h)))
  · next h => exact State.withdrawNote_leads h
  · next h => exact State.withdrawCue_leads h

/-! A withdrawn slot stays FREE through what its leaving brings: of the slot map, a change of tracker state can at
most empty it. -/

@[simp] theorem State.raise_admission (b : Block) (r : Report) (s : State) :
    (s.raise b r).admission = s.admission := by
  unfold State.raise; split <;> rfl

@[simp] theorem State.raiseAll_admission (b : Block) (l : List Report) (s : State) :
    (State.raiseAll b l s).admission = s.admission := by
  induction l generalizing s with
  | nil => rfl
  | cons r l ih => simp [State.raiseAll, ih]

@[simp] theorem State.demandRefresh_admission (s : State) : s.demandRefresh.admission = s.admission := by
  unfold State.demandRefresh; split <;> rfl

@[simp] theorem State.noteEmptied_admission (c : StarvedCause) (n : Option Nat) (s : State) :
    (s.noteEmptied c n).admission = s.admission := by
  unfold State.noteEmptied; split
  · exact State.raise_admission _ _ _
  · rfl

@[simp] theorem State.announce_admission (n : TrackerState) (c : StateCause) (s : State) :
    (s.announce n c).admission = s.admission := by
  unfold State.announce
  rw [State.demandRefresh_admission]
  exact State.raise_admission _ _ _

theorem State.changeState_slots (n : TrackerState) (c : StateCause) (s : State) :
    (s.changeState n c).admission.slots = s.admission.slots ∨ (s.changeState n c).admission.slots = [] := by
  have ha : (s.announce n c).admission.slots = s.admission.slots := by rw [State.announce_admission]
  unfold State.changeState
  cases n with
  | stopping => exact .inr rfl
  | halted => exact .inl ha
  | leading =>
    dsimp only; split
    · refine .inl (Eq.trans ?_ ha)
      unfold State.beginRun
      rw [State.noteEmptied_admission]
      split <;> rfl
    · exact .inl ha
  | idle =>
    dsimp only; split
    · exact .inr rfl
    · exact .inl ha
  | winding | following | coasting | waiting => exact .inl ha

theorem State.slot_empty {s : State} (h : s.admission.slots = []) (n : Nat) : s.slot n = .free := by
  unfold State.slot; rw [h]; rfl

theorem State.changeAll_free {n : Nat} (l : List (TrackerState × StateCause)) {s : State} (h : s.slot n = .free) :
    (State.changeAll l s).slot n = .free := by
  induction l generalizing s with
  | nil => exact h
  | cons c l ih =>
    refine ih ?_
    rcases State.changeState_slots c.1 c.2 s with hc | hc
    · unfold State.slot; rw [hc]; exact h
    · exact State.slot_empty hc n

theorem State.deliver_free {n : Nat} (m : Option Message) {s : State} (h : s.slot n = .free) :
    (s.deliver m).slot n = .free := by
  unfold State.deliver; dsimp only; split
  · exact h
  · refine State.changeAll_free _ ?_
    unfold State.slot
    rw [State.raiseAll_admission]
    split <;> exact h

/-- A withdrawal frees the slot, in a slot map in canonical form. -/
theorem State.withdrawCue_free {s : State} (hw : Table.wf SlotState.free s.admission.slots = true) (n : Nat) :
    (s.withdrawCue n).slot n = .free := by
  have hf : (s.setSlot n .free).slot n = .free := Table.get_set_same _ _ _ hw
  unfold State.withdrawCue
  split
  · exact hf
  · refine State.deliver_free none ?_
    unfold State.slot; rw [State.raise_admission]; exact hf

theorem State.withdrawNote_free {s : State} (hw : Table.wf SlotState.free s.admission.slots = true) (n : Nat) :
    (s.withdrawNote n).slot n = .free := by
  have hf : (s.setSlot n .free).slot n = .free := Table.get_set_same _ _ _ hw
  unfold State.withdrawNote
  split
  · exact hf
  · unfold State.slot; rw [State.noteEmptied_admission, State.raise_admission]; exact hf

/-! ### The canonical form of the slot map -/

theorem Ledger.Move.slots_wf {h k : Ledger} (m : h.Move C k) (hw : Table.wf .free h.slots = true) :
    Table.wf .free k.slots = true := by
  cases m with
  | listed | begun | unlisted | abandoned | refused | noteAdmitted | cueAdmitted => exact Table.wf_set _ _ _ hw
  | notesGone | cuesGone => exact freeAll_wf _ hw
  | emptied => rfl
  | _ => exact hw

/-- The slot map is in canonical form. -/
def State.slotsCanonical (s : State) : Prop := Table.wf SlotState.free s.admission.slots = true

theorem State.Leads.canonical {s t : State} (h : s.Leads C t) (hs : C → s.slotsCanonical) : C → t.slotsCanonical := by
  intro hc
  have key : ∀ {a b : Ledger}, Relation.ReflTransGen (Ledger.Move C) a b → Table.wf .free a.slots = true →
      Table.wf .free b.slots = true := by
    intro a b h hw
    induction h with
    | refl => exact hw
    | tail _ m ih => exact m.slots_wf ih
  exact key h (hs hc)

/-! ### Commits and the end of a fetch (R3, R7, R13) -/

theorem State.commitSlot_leads (n : Nat) (v : Word) {s : State} (hC : C → s.slotsCanonical) :
    s.Leads C (s.commitSlot n v) := by
  unfold State.commitSlot
  split
  · next h => exact State.listSlot_leads v fun _ => h
  · exact .move (.recommitted n v)
  · next h => exact .trans (t := s.recommit n v) (.move (.recommitted n v)) (State.restartFetch_leads h)
  · next h =>
    exact (State.withdrawNote_leads h).trans (State.listSlot_leads v fun hc => State.withdrawNote_free (hC hc) n)
  · next h =>
    exact (State.withdrawCue_leads h).trans (State.listSlot_leads v fun hc => State.withdrawCue_free (hC hc) n)

theorem State.scoreWrite_leads (n k : Nat) (v : Word) {s : State} (hC : C → s.slotsCanonical) :
    s.Leads C (s.scoreWrite n k v) := by
  unfold State.scoreWrite
  split
  · split
    · exact State.editSlot_leads n s
    · split
      · exact State.emptySlot_leads n s
      · exact State.commitSlot_leads n v hC
  · exact .refl s

/-- The offer of a fetched record to the hold queue (R13, R22). -/
theorem State.offerHold_leads {s : State} {e : AdmissionEntry} {rest : List AdmissionEntry} {x : HoldEntry} (o : Nat)
    (hl : s.admission.list = e :: rest) (hf : s.admission.fetch ≠ none) (hx : x.slot = e.slot) :
    s.Leads C (State.offerHold x { s.leaveList with admission := { s.leaveList.admission with nextOrder := o } }) := by
  unfold State.offerHold
  split
  · refine .to (.move (Ledger.Move.refused (h := s.ledger) e rest hl hf |>.to ?_)) (State.raise_ledger _ _ _)
    simp [State.ledger, State.leaveList, hl, hx]
  · next hc =>
    refine .move (Ledger.Move.noteAdmitted (h := s.ledger) e rest x hl hf hx (Nat.lt_of_not_le hc) |>.to ?_)
    simp [State.ledger, State.leaveList, State.admitted, hl, hx]

/-- The offer of a fetched record to the cue list (R13, R98). -/
theorem State.offerCue_leads {s : State} {e : AdmissionEntry} {rest : List AdmissionEntry} {x : CueEntry} (o : Nat)
    (hl : s.admission.list = e :: rest) (hf : s.admission.fetch ≠ none) (hx : x.slot = e.slot) :
    s.Leads C (State.offerCue x { s.leaveList with admission := { s.leaveList.admission with nextOrder := o } }) := by
  unfold State.offerCue
  split
  · refine .to (.move (Ledger.Move.refused (h := s.ledger) e rest hl hf |>.to ?_)) (State.raise_ledger _ _ _)
    simp [State.ledger, State.leaveList, hl, hx]
  · next m hm =>
    unfold Matcher.offer at hm
    split at hm
    · cases hm
    · next hc =>
      cases hm
      refine .trans (.move (Ledger.Move.cueAdmitted (h := s.ledger) e rest x hl hf hx (Nat.lt_of_not_le hc) |>.to ?_))
        (State.deliver_leads _ _)
      simp [State.ledger, State.leaveList, State.admitted, hl, hx]

theorem State.judgeRecord_leads (i : Installed) {s : State} {e : AdmissionEntry} {rest : List AdmissionEntry}
    (r : FetchedRecord) (hl : s.admission.list = e :: rest) (hf : s.admission.fetch ≠ none) :
    s.Leads C (s.leaveList.judgeRecord i e.slot r) := by
  have refuse : ∀ x : Report, s.Leads C ((s.leaveList.setSlot e.slot .free).raise .admission x) := fun x => by
    refine .to (.move (Ledger.Move.refused (h := s.ledger) e rest hl hf |>.to ?_)) (State.raise_ledger _ _ _)
    simp [State.ledger, State.leaveList, hl]
  unfold State.judgeRecord
  split
  · exact refuse _
  · split
    · exact refuse _
    · unfold State.placeRecord
      dsimp only; split
      · exact State.offerHold_leads _ hl hf rfl
      · exact State.offerCue_leads _ hl hf rfl

theorem State.fetchWord_leads (w : Word) (s : State) : s.Leads C (s.fetchWord w) := by
  unfold State.fetchWord
  split
  · next hf hl => exact State.judgeRecord_leads _ _ hl (by rw [hf]; nofun)
  · next hf _ => exact .move (.fetched _ (.inl (by show s.admission.fetch ≠ none; rw [hf]; nofun)))
  · exact .refl s

/-! ### Anchor loads and pickup entries (chapter 9) -/

theorem State.anchorCommit_leads (s : State) : s.Leads C s.anchorCommit := by
  unfold State.anchorCommit
  split
  · exact State.loadStart_leads s
  · exact State.loadStart_leads s
  · split
    · exact State.loadStart_leads s
    · exact .same (by simp)
  · exact .refl s

theorem State.takeHeldMasks_leads (held : Vector (Option Word) 4) (l : List Division) (s : State) :
    s.Leads C (State.takeHeldMasks held l s) := by
  induction l generalizing s with
  | nil => exact .refl s
  | cons d l ih =>
    unfold State.takeHeldMasks
    split
    · exact ih s
    · exact (State.maskChange_leads _ _ _).trans (ih _)

theorem State.enterConfigured_leads (s : State) : s.Leads C s.enterConfigured :=
  .trans (.trans (.same (s.setConfig_ledger .configured)) (.move (.pickupsNoted _)))
    (State.takeHeldMasks_leads _ _ _)

theorem State.rejectAnchor_leads (r : AnchorReason) (s : State) : s.Leads C (s.rejectAnchor r) := by
  unfold State.rejectAnchor
  split
  · have configured : s.Leads C (s.raise .anchorLoader (.anchor (.invalid r))).enterConfigured :=
      (State.enterConfigured_leads _).from (State.raise_ledger _ _ _)
    refine configured.trans ?_
    unfold State.sweepIfStopping; split
    · exact State.requestSweep_leads _ _ _
    · exact .refl _
  · exact .trans (.same (s.setConfig_ledger .unconfigured)) (.move (.pickupsFewer [] (List.nil_sublist _)))

/-- The report queue and the loss counts stay within their limits, or do not grow. -/
def ReportWriter.Within (w v : ReportWriter) : Prop :=
  v.queue.length ≤ max Config.reportCapacity w.queue.length ∧ v.lostCount ≤ max Config.lostLimit w.lostCount
    ∧ v.lostTotal ≤ max Config.lostLimit w.lostTotal

theorem ReportWriter.Within.refl (w : ReportWriter) : w.Within w :=
  ⟨Nat.le_max_right _ _, Nat.le_max_right _ _, Nat.le_max_right _ _⟩

theorem ReportWriter.Within.trans {w v u : ReportWriter} (h : w.Within v) (k : v.Within u) : w.Within u := by
  obtain ⟨h1, h2, h3⟩ := h
  obtain ⟨k1, k2, k3⟩ := k
  unfold ReportWriter.Within
  omega

theorem ReportWriter.take_within (r : Record) (w : ReportWriter) : w.Within (w.take r) := by
  unfold ReportWriter.take ReportWriter.Within
  split
  · simp only [ReportWriter.countLoss]; omega
  · simp only [List.length_append, List.length_singleton]; omega

theorem ReportWriter.takeAll_within (l : List Raised) (w : ReportWriter) : w.Within (w.takeAll l) := by
  unfold ReportWriter.takeAll
  induction l generalizing w with
  | nil => exact .refl w
  | cons r l ih => exact (ReportWriter.take_within _ _).trans (ih _)

theorem ReportWriter.install_within (i : Installed) (now : Frame) (w : ReportWriter) : w.Within (w.install i now) := by
  simp [ReportWriter.Within, ReportWriter.install, Config.reportCapacity]

theorem ReportWriter.beginRecord_within (i : Installed) (now : Frame) (p : Nat) (w : ReportWriter) :
    w.Within (w.beginRecord i now p) := by
  unfold ReportWriter.beginRecord
  split
  · split
    · simp [ReportWriter.Within, ReportWriter.writeRecord]
    · split
      · exact .refl w
      · next r q hq =>
        have hl : w.queue.length = q.length + 1 := by rw [hq]; rfl
        unfold ReportWriter.Within
        split
        · simp only [ReportWriter.writeRecord]; omega
        · simp only [ReportWriter.countLoss]; omega
  · exact .refl w

/-- The report writer's work is one change of the ledger (R165, R168, R174). -/
theorem State.Leads.report {s t : State} (hw : s.report.Within t.report) (ht : t.ledger = { s.ledger with
    queue := t.report.queue, lostCount := t.report.lostCount, lostTotal := t.report.lostTotal }) : s.Leads C t :=
  .move ((Ledger.Move.reported (h := s.ledger) _ _ _ hw.1 hw.2.1 hw.2.2).to ht)

theorem grantedWrite_discardReport (p : Option PortAccess) : grantedWrite (discardReportWrite p) = grantedWrite p := by
  unfold discardReportWrite; split <;> rfl

theorem grantedWrite_abandonPickup (b : Bool) (p : Option PortAccess) :
    grantedWrite (abandonPickupRead b p) = grantedWrite p := by
  unfold abandonPickupRead; split <;> rfl

theorem State.install_leads (ws : List Word) (s : State) : s.Leads C (s.install ws) := by
  have h1 : s.Leads C s.takeRaised :=
    .trans (.same s.bringCounts_ledger) (.report (ReportWriter.takeAll_within s.bringCounts.raised _) rfl)
  unfold State.install
  refine .to (.trans h1 (.trans ?_ (State.requestSweep_leads _ _ _))) (State.recomputeLag_ledger _)
  refine .report (ReportWriter.install_within (parseInstalled ws) s.takeRaised.link.frame _) ?_
  simp [State.ledger, grantedWrite_discardReport]

theorem State.anchorReadWord_leads (w : Word) (s : State) : s.Leads C (s.anchorReadWord w) := by
  unfold State.anchorReadWord
  split
  · exact .refl s
  · dsimp only; split
    · unfold State.judgeAnchor; split
      · exact State.rejectAnchor_leads _ _
      · exact State.install_leads _ _
    · exact .same rfl

theorem State.stopMaskWrite_leads (d : Division) (v : Word) (s : State) : s.Leads C (s.stopMaskWrite d v) := by
  have h1 : s.Leads C { s with path := { s.path with writeBacks := writeBackCancel d s.path.writeBacks } } :=
    .move (.writeBacksFewer _ List.filter_sublist)
  unfold State.stopMaskWrite
  dsimp only; split
  · exact h1
  · exact h1.to rfl
  · exact h1.trans (State.maskChange_leads _ _ _)
  · exact h1.trans (State.maskChange_leads _ _ _)

@[simp] theorem State.pickupHeldWrite_ledger (k : PickupNo) (s : State) : (s.pickupHeldWrite k).ledger = s.ledger := by
  unfold State.pickupHeldWrite Loader.restartPickup
  split
  · simp only [State.ledger, grantedWrite_abandonPickup]; split <;> rfl
  · rfl

theorem State.pickupCommitWrite_leads (k : PickupNo) (v : Word) (s : State) :
    s.Leads C (s.pickupCommitWrite k v) := by
  unfold State.pickupCommitWrite
  split
  · exact .refl s
  · split <;> exact .same rfl
  · exact .trans (.same (s.pickupHeldWrite_ledger k)) (.move (.pickupAsked k v))
  · exact .trans (.same (s.pickupHeldWrite_ledger k)) (.move (.pickupAsked k v))

theorem State.pickupWord_leads (w : Word) (s : State) : s.Leads C (s.pickupWord w) := by
  unfold State.pickupWord
  split
  · exact .refl s
  · next e rest hl =>
    split
    · exact .same rfl
    · refine .trans (.move (.pickupsFewer rest ?_)) (State.applyPickup_leads _ _ _)
      show rest.Sublist s.loader.pickupList
      rw [hl]; exact List.sublist_cons_self _ _

/-! ### The run controller (chapter 8) -/

theorem State.askClear_leads (s : State) : s.Leads C s.askClear :=
  .cuesGone _ _ (Matcher.clearStale_leaves _ _).1
    (fun n hn => .inl ((Matcher.clearStale_leaves s.tracker.position s.matcher).2 n hn))
    (State.raiseAll_ledger _ _ _)

theorem State.leaveWinding_leads (s : State) : s.Leads C s.leaveWinding := by
  unfold State.leaveWinding
  split
  · split
    · exact State.askClear_leads s
    · exact State.changeAll_leads _ _
  · exact .refl s

theorem State.takeClearAnswer_leads (s : State) : s.Leads C s.takeClearAnswer := by
  unfold State.takeClearAnswer
  split
  · have hd : s.Leads C (State.deliver none { s with matcher := { s.matcher with clearAnswer := false } }) :=
      (State.deliver_leads _ _).from rfl
    dsimp only; split
    · exact hd.trans ((State.leaveWinding_leads _).from rfl)
    · exact hd
  · exact .refl s

theorem State.reportReady_leads (s : State) : s.Leads C s.reportReady := by
  unfold State.reportReady
  split
  · exact (State.leaveWinding_leads _).from (State.raise_ledger _ _ _)
  · exact .refl s

@[simp] theorem State.runAfterLimit_ledger (s : State) : s.runAfterLimit.ledger = s.ledger := rfl

theorem State.runAfterSettle_leads (s : State) : s.Leads C s.runAfterSettle := by
  unfold State.runAfterSettle
  dsimp only; split
  · exact .same rfl
  · refine .to ?_ (State.runAfterLimit_ledger _)
    exact (State.reportReady_leads _).from rfl

theorem State.runAfterDrop_leads (s : State) : s.Leads C s.runAfterDrop := by
  unfold State.runAfterDrop
  dsimp only; split
  · exact .same rfl
  · exact (State.runAfterSettle_leads _).from rfl

theorem State.runAfterCancel_leads (s : State) : s.Leads C s.runAfterCancel := by
  unfold State.runAfterCancel
  split
  · exact .same rfl
  · exact State.runAfterDrop_leads s

theorem State.runFrame_leads (c w : Bool) (s : State) : s.Leads C (s.runFrame c w) := by
  unfold State.runFrame
  dsimp only; split
  · exact (State.runAfterCancel_leads _).from rfl
  · exact .same rfl

theorem State.cancelEffect_leads (s : State) : s.Leads C s.cancelEffect := by
  unfold State.cancelEffect
  split
  · dsimp only; split
    · exact (State.requestSweep_leads _ _ _).from (State.raise_ledger _ _ _)
    · exact (State.changeState_leads _ _ _).from (State.raise_ledger _ _ _)
  · exact .refl s

theorem State.haltByDrop_leads (s : State) : s.Leads C s.haltByDrop := by
  unfold State.haltByDrop
  split
  · exact State.changeState_leads _ _ _
  · exact .refl s

theorem State.runCancelAssert_leads (s : State) : s.Leads C s.runCancelAssert := by
  have cancelled : s.Leads C (State.cancelEffect { s.setStage .done with
      run := { (s.setStage .done).run with cancelHeld := true } }) := (State.cancelEffect_leads _).from rfl
  exact cancelled.trans (State.runAfterCancel_leads _)

theorem State.runDrop_leads (s : State) : s.Leads C s.runDrop := by
  have dropped : s.Leads C (State.raise .run (.wind (.dropped s.run.announced)) { s.setStage .done with
      run := { (s.setStage .done).run with wind := .unconfirmed } }) := .same (State.raise_ledger _ _ _)
  exact (dropped.trans (State.haltByDrop_leads _)).trans (State.runAfterDrop_leads _)

theorem State.runLimit_leads (s : State) : s.Leads C s.runLimit := by
  have hr := State.raise_ledger .run (.wind (.limit s.run.wind)) (s.setStage .done)
  unfold State.runLimit
  refine .to ?_ (State.runAfterLimit_ledger _)
  dsimp only; split
  · exact (State.changeState_leads _ _ _).from hr
  · exact .same hr

theorem State.runStage_leads (s : State) : s.Leads C s.runStage := by
  unfold State.runStage
  split
  · exact .refl s
  · exact State.runCancelAssert_leads s
  · exact (State.runAfterCancel_leads _).from rfl
  · exact State.runDrop_leads s
  · exact (State.runAfterSettle_leads _).from rfl
  · exact State.runLimit_leads s
  · exact .same rfl

theorem State.finishRun_leads (s : State) : s.Leads C s.finishRun :=
  ((((State.runStage_leads s).trans (State.runStage_leads _)).trans (State.runStage_leads _)).trans
    (State.runStage_leads _)).trans (State.runStage_leads _)

/-- The drop of the entries and cues below the start stamp (R33, R111). -/
theorem State.dropBelow_leads (stamp : Nat) (s : State) : s.Leads C (s.dropBelow stamp) := by
  have below : ∀ n : Nat, decide (n < stamp) = !decide (stamp ≤ n) := fun n => by
    rw [← decide_not]; exact decide_eq_decide.2 Nat.not_le.symm
  have notes : s.Leads C (State.freeSlots ((s.release.hold.filter (fun e => e.stamp < stamp)).map HoldEntry.slot)
      { s with release := { s.release with hold := s.release.hold.filter (fun e => stamp ≤ e.stamp) } }) := by
    refine .notesGone _ _ (.filter _ fun e => below e.stamp) (fun n hn => .inl ?_) rfl
    obtain ⟨e, he, rfl⟩ := List.mem_map.1 hn
    exact ⟨e, (List.mem_filter.1 he).1, rfl⟩
  refine notes.trans (.to (.cuesGone (s.matcher.cues.filter fun e => stamp ≤ e.stamp) (s.matcher.startDropped stamp)
    ?_ ?_ ?_) (rfl))
  · rw [State.freeSlots_fold]
    exact .filter _ fun e => below e.stamp
  · intro n hn
    obtain ⟨e, he, rfl⟩ := List.mem_map.1 hn
    rw [State.freeSlots_fold]
    exact .inl ⟨e, (List.mem_filter.1 he).1, rfl⟩
  · rw [State.freeSlots_fold, State.freeSlots_fold]; rfl

theorem State.acceptStart_leads (s : State) : s.Leads C s.acceptStart := by
  have winding : s.Leads C (State.changeState .winding .start { s.bringCounts with
      tracker := s.bringCounts.tracker.start s.run.startStamp s.bringCounts.run.nominal.toNat }) :=
    (State.changeState_leads _ _ _).from s.bringCounts_ledger
  have revoiced := winding.trans (State.requestSweep_leads .revoice Divisions.all _)
  exact revoiced.trans ((State.dropBelow_leads _ _).from rfl)

theorem State.takeStart_leads (i : Installed) (s : State) : s.Leads C (s.takeStart i) := by
  unfold State.takeStart; split
  · exact .same (State.commandReport_ledger ..)
  · exact State.acceptStart_leads s

theorem State.takeStop_leads (s : State) : s.Leads C s.takeStop := by
  unfold State.takeStop; split
  · exact .same (State.commandReport_ledger ..)
  · exact (State.changeState_leads _ _ _).from (State.commandReport_ledger ..)

theorem State.takeResume_leads (s : State) : s.Leads C s.takeResume := by
  unfold State.takeResume; split
  · exact .same (State.commandReport_ledger ..)
  · exact (State.changeState_leads _ _ _).from (State.commandReport_ledger 3 .accepted none s.run.announced 0 0 s)

theorem State.command_leads (v : Word) (s : State) : s.Leads C (s.command v) := by
  unfold State.command
  split
  · exact .refl s
  split
  · exact .refl s
  refine (State.finishRun_leads s).trans ?_
  split
  · exact State.takeStart_leads _ _
  split
  · exact State.takeStop_leads _
  split
  · exact State.takeResume_leads _
  · exact .same (State.commandReport_ledger ..)

/-! ### The memory path (chapter 9) -/

theorem State.anchorSnoop_leads (n : Nat) (v : Word) (s : State) : s.Leads C (s.anchorSnoop n v) := by
  unfold State.anchorSnoop
  split
  · exact .refl s
  split
  · split
    · exact State.stopMaskWrite_leads _ _ _
    · exact .refl s
  split
  · dsimp only; split
    · exact State.pickupCommitWrite_leads _ _ _
    · exact .same (State.pickupHeldWrite_ledger _ _)
  split
  · exact .same rfl
  split
  · exact .same rfl
  split
  · exact .same rfl
  split
  · exact State.command_leads v s
  split
  · exact .same (State.consumerWrite_ledger v s)
  · exact State.anchorCommit_leads s

theorem State.snoop_leads (a : Nat) (v : Word) {s : State} (hC : C → s.slotsCanonical) : s.Leads C (s.snoop a v) := by
  unfold State.snoop
  split
  · exact State.anchorSnoop_leads a v s
  · exact State.scoreWrite_leads _ _ v hC
  · exact .refl s

theorem State.storeAndSnoop_leads (a : Nat) (v : Word) {s : State} (hC : C → s.slotsCanonical) :
    s.Leads C (s.storeAndSnoop a v) :=
  (State.snoop_leads (s := s.store a v) a v hC).from rfl

/-- The completion of the access that was on the port (R154): the head of the FIFO leaves it once its write is in
memory (R44). -/
theorem State.complete_leads (a : PortAccess) {s : State} (hp : s.path.port = none) (hC : C → s.slotsCanonical) :
    s.Leads C (s.complete a) := by
  unfold State.complete
  split
  · unfold State.finishChestWrite
    split
    · exact .move (.headWritten (by simp [State.ledger, hp, grantedWrite]))
    · exact .same rfl
  · split
    · exact .refl s
    · exact State.fetchWord_leads _ s
  · split
    · exact .refl s
    · exact State.anchorReadWord_leads _ s
  · split
    · exact .refl s
    · exact State.pickupWord_leads _ s
  · exact .same rfl
  · split
    · exact .same rfl
    · exact .same (State.finishReportWrite_ledger _)
  · exact .same rfl
  · exact (State.storeAndSnoop_leads (s := s.releaseProcessor) _ _ hC).from rfl

theorem State.portDone_leads {s : State} (hC : C → s.slotsCanonical) : s.Leads C s.portDone := by
  unfold State.portDone
  split
  · exact .refl s
  · have h0 : s.Leads C { s with path := { s.path with port := none } } := .move .portFreed
    exact (h0.trans (State.complete_leads _ rfl hC)).trans (State.pump_leads _)

theorem State.driveProcessor_leads {s : State} (hC : C → s.slotsCanonical) : s.Leads C s.driveProcessor := by
  unfold State.driveProcessor
  split
  · split
    · exact State.portDone_leads hC
    · exact State.grantWriteBack_leads s
  · exact .refl s

theorem State.flushProcessor_leads {s : State} (hC : C → s.slotsCanonical) : s.Leads C s.flushProcessor := by
  have next : ∀ {t : State}, s.Leads C t → s.Leads C t.driveProcessor :=
    fun h => h.trans (State.driveProcessor_leads (h.canonical hC))
  exact next (next (next (next (next (next (.refl s))))))

theorem State.access_leads (a : ProcAccess) {s : State} (hC : C → s.slotsCanonical) : s.Leads C (s.access a) := by
  have hf := State.flushProcessor_leads hC
  refine hf.trans ?_
  unfold State.access
  dsimp only; split
  · exact .same (State.drop_ledger _ _ _ _)
  · split
    · exact .same rfl
    · refine .trans ?_ (State.pump_leads _)
      cases a with
      | read n => exact .same rfl
      | write n v => exact State.storeAndSnoop_leads _ _ (hf.canonical hC)

/-! ### The start of a frame (R59) -/

theorem State.markDue_leads (s : State) : s.Leads C s.markDue := by
  unfold State.markDue
  split
  · exact .refl s
  · next i _ =>
    refine .move (.soundingMapped (SoundEntry.becomeDue i.repeatGap s.link.frame) fun e => ?_)
    unfold SoundEntry.becomeDue; split <;> exact Nat.le_refl _

theorem State.closeWindow_leads (s : State) : s.Leads C s.closeWindow := by
  unfold State.closeWindow
  split
  · exact .refl s
  · split
    · exact (State.takeFused_leads _ _).from rfl
    · exact .refl s

theorem State.expireWait_leads (s : State) : s.Leads C s.expireWait := by
  unfold State.expireWait
  split
  · exact .refl s
  · split
    · exact State.applyMatcher_leads (Matcher.expireWait_leaves _ _)
    · exact .refl s

theorem State.finishFrame_leads (s : State) : s.Leads C s.finishFrame :=
  (((State.finishRun_leads s).trans (State.expireWait_leads _)).trans (State.closeWindow_leads _)).trans
    (State.markDue_leads _)

theorem Matcher.tick_cues (n : Nat) (m : Matcher) : (m.tick n).cues = m.cues := by
  unfold Matcher.tick; split
  · split <;> rfl
  · rfl

theorem State.expireCues_leads (lossLimit trail n : Nat) (s : State) :
    s.Leads C (State.expireCues lossLimit trail n s) := by
  induction n generalizing s with
  | zero => exact .refl s
  | succ n ih =>
    unfold State.expireCues
    split
    · exact .refl s
    · next h => exact (State.applyMatcher_leads (Matcher.expireOne_leaves h)).trans (ih _)

theorem State.matcherFrame_leads (s : State) : s.Leads C s.matcherFrame := by
  unfold State.matcherFrame
  split
  · exact .refl s
  · next i _ =>
    have ticked : s.Leads C { s with matcher := s.matcher.tick i.waitLimit } :=
      .same (by simp only [State.ledger, Matcher.tick_cues])
    dsimp only; split
    · exact ticked.trans (State.expireCues_leads _ _ _ _)
    · exact ticked

theorem State.trackerFrame_leads (s : State) : s.Leads C s.trackerFrame := State.applyTracker_leads _ _

theorem State.frameBlocks_leads (c w : Bool) (o : FrameOrder) (s : State) : s.Leads C (s.frameBlocks c w o) := by
  have T := State.trackerFrame_leads (C := C)
  have M := State.matcherFrame_leads (C := C)
  have R := State.runFrame_leads (C := C) c w
  cases o with
  | tmr => exact ((T s).trans (M _)).trans (R _)
  | trm => exact ((T s).trans (R _)).trans (M _)
  | mtr => exact ((M s).trans (T _)).trans (R _)
  | mrt => exact ((M s).trans (R _)).trans (T _)
  | rtm => exact ((R s).trans (T _)).trans (M _)
  | rmt => exact ((R s).trans (M _)).trans (T _)

/-! ### The chest write FIFO (R26, R44, R46) -/

/-- The FIFO is open to a write of the sweep or of a due key (R43, R46). -/
theorem State.fifoOpen_count {s : State} (h : s.fifoOpen = true) : s.ledger.count < Config.fifoCapacity := by
  unfold State.fifoOpen at h
  rw [← s.fifoCount_eq]
  exact of_decide_eq_true (Bool.and_eq_true_iff.1 h).1

/-- What a chest operation does that queues at most one write (R40, R41). -/
def State.QueuesOne (C : Prop) (s : State) (c : Chest) : Prop :=
  s.Leads C { s with chest := c } ∧ c.fifo.length ≤ s.chest.fifo.length + 1

/-- A key's entry is written (R38). -/
theorem State.QueuesOne.sounded {s : State} {c : Chest} (d : Division) (k : Nat) (e : SoundEntry)
    (he : e.holders ≤ max Config.holderLimit (s.chest.sound d k).holders)
    (hc : c.sounding = (s.chest.setSound d k e).sounding) (hf : c.fifo = s.chest.fifo) : s.QueuesOne C c :=
  ⟨.move ((Ledger.Move.sounded (h := s.ledger) _ e he).to (by simp only [State.ledger, hc, hf, Chest.setSound])),
    by rw [hf]; exact Nat.le_succ _⟩

/-- A key's entry is written and a write queued (R40, R41, R43). -/
theorem State.QueuesOne.queued {s : State} {c : Chest} (d : Division) (k : Nat) (e : SoundEntry) (x : FifoEntry)
    (he : e.holders ≤ max Config.holderLimit (s.chest.sound d k).holders) (hq : s.fifoCount < Config.fifoCapacity)
    (hc : c.sounding = (s.chest.setSound d k e).sounding) (hf : c.fifo = s.chest.fifo ++ [x]) : s.QueuesOne C c := by
  have wrote : s.Leads C { s with chest := s.chest.setSound d k e } := .move (.sounded _ e he)
  refine ⟨wrote.trans (.move ((Ledger.Move.queued x ?_).to ?_)), by rw [hf]; simp⟩
  · exact s.fifoCount_eq ▸ hq
  · simp only [State.ledger, hc, hf, Chest.setSound]

theorem Chest.holdOn_queuesOne (m : Installed) (now : Frame) (h : NoteHold) {s : State}
    (hq : s.fifoCount < Config.fifoCapacity) : s.QueuesOne C (Chest.holdOn m now h s.chest).1 := by
  unfold Chest.holdOn
  dsimp only
  split
  · exact ⟨.refl s, Nat.le_succ _⟩
  next hl =>
  have hl : (s.chest.sound h.division h.key).holders + 1 ≤ Config.holderLimit := Nat.lt_of_not_le hl
  split
  · exact .sounded _ _ _ (le_max_of_le_left hl) rfl rfl
  split
  · exact .sounded _ _ _ (le_max_of_le_left hl) rfl rfl
  split
  · exact .sounded _ _ _ (le_max_of_le_left (Nat.le_trans (Nat.le_add_left 1 _) hl)) rfl rfl
  · exact .queued _ _ _ _ (le_max_of_le_left hl) hq rfl rfl

theorem Chest.holdOff_queuesOne (m : Installed) (now : Frame) (key : Nat) (h : NoteHold) {s : State}
    (hq : s.fifoCount < Config.fifoCapacity) : s.QueuesOne C (Chest.holdOff m now key h s.chest).1 := by
  unfold Chest.holdOff
  dsimp only
  split
  · exact ⟨.refl s, Nat.le_succ _⟩
  split
  · exact .sounded _ _ _ (le_max_of_le_right (Nat.sub_le _ _)) rfl rfl
  split
  · exact .sounded _ _ _ (Nat.zero_le _) rfl rfl
  split
  · exact .sounded _ _ _ (Nat.zero_le _) rfl rfl
  · exact .queued _ _ _ _ (Nat.zero_le _) hq rfl rfl

/-- Holds taken one after another, in a FIFO with a free entry for each (R26, R39). -/
theorem Chest.takeHolds_leads {f : NoteHold → Chest → Chest × List Report}
    (hf : ∀ h, ∀ s : State, s.fifoCount < Config.fifoCapacity → s.QueuesOne C (f h s.chest).1)
    (l : List NoteHold) {s : State} (hq : s.fifoCount + l.length ≤ Config.fifoCapacity) :
    s.Leads C { s with chest := (Chest.takeHolds f l s.chest).1 } := by
  induction l generalizing s with
  | nil => exact .refl s
  | cons h l ih =>
    rw [List.length_cons] at hq
    obtain ⟨first, hlen⟩ := hf h s (by omega)
    refine first.trans (ih ?_)
    unfold State.fifoCount at hq ⊢
    dsimp only at hq ⊢
    omega

theorem holdAt_length (d : Division) (k : Int) (b : Bool) : (holdAt d k b).length ≤ 1 := by
  unfold holdAt; split <;> simp

theorem Chest.coupledHold_length (c : Chest) (x : Option Coupler) (k : Int) : (c.coupledHold x k).length ≤ 1 := by
  unfold Chest.coupledHold
  split
  · simp
  · split
    · exact holdAt_length _ _ _
    · simp

/-- A note action has three holds at most (R39). -/
theorem Chest.noteHolds_length (c : Chest) (d : Division) (k : Nat) : (c.noteHolds d k).length ≤ Config.noteSpace := by
  unfold Chest.noteHolds
  dsimp only; split
  · have h1 := holdAt_length d (k + (c.division d).transpose) false
    have h2 := c.coupledHold_length (c.division d).couplerA (k + (c.division d).transpose)
    have h3 := c.coupledHold_length (c.division d).couplerB (k + (c.division d).transpose)
    simp only [List.length_append, Config.noteSpace]
    omega
  · simp

/-- A note action of an entry that found its space (R26, R39). -/
theorem State.noteAction_leads (i : Installed) (e : HoldEntry) (on : Bool) {s : State} (h : s.noteRoom = true) :
    s.Leads C (s.noteAction i e on) := by
  have hroom : s.fifoCount + (s.chest.noteHolds e.division e.key).length ≤ Config.fifoCapacity :=
    Nat.le_trans (Nat.add_le_add_left (s.chest.noteHolds_length _ _) _) (of_decide_eq_true h)
  refine .to ?_ (State.raiseAll_ledger _ _ _)
  unfold Chest.noteAction
  split
  · exact Chest.takeHolds_leads (fun h s => Chest.holdOn_queuesOne i _ h) _ hroom
  · exact Chest.takeHolds_leads (fun h s => Chest.holdOff_queuesOne i _ _ h) _ hroom

/-! ### Releases and sweeps -/

theorem State.dispatch_leads (i : Installed) (e : HoldEntry) {s : State} (h : e.isNote = true → s.noteRoom = true) :
    s.Leads C (s.dispatch i e) := by
  unfold State.dispatch
  split
  · next hk => exact State.noteAction_leads i e true (h (by simp [HoldEntry.isNote, hk]))
  · next hk => exact State.noteAction_leads i e false (h (by simp [HoldEntry.isNote, hk]))
  · exact (State.maskChange_leads _ _ _).trans (.move (.writeBackAsked _ _))
  · exact State.applyTracker_leads _ _
  · exact .same (State.raise_ledger _ _ _)

/-- The head leaves the hold queue (R25). -/
theorem State.takeHead_leads {s : State} {e : HoldEntry} {rest : List HoldEntry} (h : s.release.hold = e :: rest) :
    s.Leads C (s.takeHead e.slot rest) := by
  have hg : Gone HoldEntry.slot s.release.hold rest [e.slot] := h ▸ Gone.front [e] rest
  refine .move (.notesGone rest [e.slot] hg fun n hn => .inl ⟨e, ?_, (List.mem_singleton.1 hn).symm⟩)
  show e ∈ s.release.hold
  rw [h]; exact List.mem_cons_self

theorem State.releaseReport_fifoCount (i : Installed) (e : HoldEntry) (s : State) :
    (s.releaseReport i e).fifoCount = s.fifoCount := by
  rw [State.fifoCount_eq, State.fifoCount_eq, State.releaseReport_ledger]

theorem execRelease_leads {s t : State} (h : execRelease s = .next t) : s.Leads C t := by
  unfold execRelease at h
  split at h
  · next i e rest hi hh =>
    split at h
    · next hr =>
      cases h
      refine .trans ?_ (State.pump_leads _)
      refine .to ?_ (State.noteEmptied_ledger _ _ _)
      refine .trans ((State.takeHead_leads hh).to (State.releaseReport_ledger i e _)) (State.dispatch_leads i e fun hn => ?_)
      have hroom : s.noteRoom = true := by simp [State.releasable, hn] at hr; exact hr.2
      unfold State.noteRoom at hroom ⊢
      rw [State.releaseReport_fifoCount]
      exact hroom
    · cases h; exact .refl s
  · cases h; exact .refl s

theorem Chest.writePending_queuesOne (m : Installed) (d : Division) (k : Nat) {s : State}
    (hq : s.fifoCount < Config.fifoCapacity) : s.QueuesOne C (s.chest.writePending m d k) :=
  .queued d k { s.chest.sound d k with pendingOn := false, due := false }
    ((s.chest.setSound d k { s.chest.sound d k with pendingOn := false, due := false }).entryFor m d k
      (s.chest.division d).stopMask true false) (Nat.le_max_right _ _) hq rfl rfl

theorem execPendingOnWrite_leads {s t : State} (h : execPendingOnWrite s = .next t) : s.Leads C t := by
  unfold execPendingOnWrite at h
  split at h
  · split at h
    · next ho =>
      cases h
      exact (Chest.writePending_queuesOne _ _ _ (s.fifoCount_eq ▸ State.fifoOpen_count ho)).1.trans (State.pump_leads _)
    · cases h; exact .refl s
  · cases h; exact .refl s

theorem execSweepWrite_leads {s t : State} (h : execSweepWrite s = .next t) : s.Leads C t := by
  unfold execSweepWrite at h
  split at h
  · next i w _ _ =>
    split at h
    · next ho =>
      cases h
      have hq : s.ledger.count < Config.fifoCapacity := State.fifoOpen_count (by simp at ho; exact ho.2)
      refine .trans ?_ (State.pump_leads _)
      unfold Chest.sweepWrite
      dsimp only; split
      · exact .move (.queued _ hq)
      · exact .move (.queued _ hq)
    · cases h; exact .refl s
  · cases h; exact .refl s

theorem State.takeSweepEnd_leads (w : Sweep) (s : State) : s.Leads C (s.takeSweepEnd w) := by
  have ended : s.Leads C { s with chest := s.chest.endSweep w } := by
    unfold Chest.endSweep
    dsimp only; split
    · exact .move .untagged
    · exact .same rfl
  have loader : ∀ t : State, t.Leads C t.loaderTakesSweepEnd := fun t => by
    unfold State.loaderTakesSweepEnd; split
    · exact State.enterConfigured_leads t
    · exact .refl t
  have tracker : ∀ t : State, t.Leads C t.trackerTakesSweepEnd := fun t => by
    unfold State.trackerTakesSweepEnd; split
    · exact State.changeState_leads _ _ t
    · exact .refl t
  unfold State.takeSweepEnd
  dsimp only; split
  · exact (ended.trans (loader _)).trans (tracker _)
  · exact ended

theorem execSweepEnd_leads {s t : State} (h : execSweepEnd s = .next t) : s.Leads C t := by
  unfold execSweepEnd at h
  split at h
  · cases h; exact .refl s
  · cases h
    refine .trans ?_ (State.pump_leads _)
    split
    · unfold State.endOff
      dsimp only; split
      · exact State.finishRun_leads s
      · exact (State.finishRun_leads s).trans (State.takeSweepEnd_leads _ _)
    · exact State.takeSweepEnd_leads _ s

/-! ### The remaining rows -/

theorem execReset_leads {s t : State} (h : execReset s = .next t) : s.Leads C t := by
  cases h
  refine .trans ?_ (State.pump_leads _)
  refine .trans (t := { State.reset with mem := s.mem, pending := s.pending }) ?_ (State.loadStart_leads _)
  refine .tail (.tail (.tail (.tail (.tail (.tail (.single .emptied) .soundingReset) .flushed) .portFreed)
    (.writeBacksFewer [] (List.nil_sublist _))) (.pickupsFewer [] (List.nil_sublist _))) ?_
  exact .reported [] 0 0 (Nat.zero_le _) (Nat.zero_le _) (Nat.zero_le _)

theorem execReportTaken_leads (b : Block) {s t : State} (h : execReportTaken b s = .next t) : s.Leads C t := by
  unfold execReportTaken at h
  dsimp only at h
  split at h
  · cases h; exact .refl s
  · next r _ _ =>
    split at h
    · cases h; exact .refl s
    · cases h
      exact .trans (.same (s.reportsFor_ledger b)) (.report (ReportWriter.take_within _ _) rfl)

theorem execRecordWriteBegin_leads {s t : State} (h : execRecordWriteBegin s = .next t) : s.Leads C t := by
  unfold execRecordWriteBegin at h
  split at h
  · cases h; exact .refl s
  · cases h
    refine .trans ?_ (State.pump_leads _)
    exact .report (ReportWriter.beginRecord_within _ _ _ _) rfl

/-- A stage row of the run controller takes the stage it names, or nothing. -/
theorem stage_leads {s t u : State} {p : Prop} [Decidable p] (hu : s.Leads C u)
    (h : (if p then .next u else .next s : Answer) = .next t) : s.Leads C t := by
  split at h <;> cases h
  · exact hu
  · exact .refl s

theorem execRefreshBegin_leads {s t : State} (h : execRefreshBegin s = .next t) : s.Leads C t := by
  unfold execRefreshBegin at h
  split at h
  · cases h; exact .refl s
  · next i _ =>
    have begun : s.Leads C (s.beginRefresh i) := .same rfl
    exact stage_leads (begun.trans (State.pump_leads _)) h

theorem State.runCancelRelease_leads (s : State) : s.Leads C s.runCancelRelease :=
  (State.runAfterCancel_leads ({ s.setStage .done with
    run := { (s.setStage .done).run with cancelHeld := false } } : State)).from rfl

theorem State.runConfirm_leads (s : State) : s.Leads C s.runConfirm :=
  (State.runAfterSettle_leads ({ s.setStage .done with
    run := { (s.setStage .done).run with wind := .confirmed } } : State)).from rfl

theorem State.runHold_leads (s : State) : s.Leads C s.runHold := .same rfl

/-- Every command leads a state to its next one by primitive changes of the ledger. -/
theorem exec_leads (c : Instr) {s t : State} (hC : C → s.slotsCanonical) (h : exec c s = .next t) : s.Leads C t := by
  have access : ∀ a, exec c s = .next (s.access a) → s.Leads C t := fun a ha => by
    rw [ha] at h; cases h; exact State.access_leads a hC
  have completed : (exec c s = .next s.portDone ∨ exec c s = .next s) → s.Leads C t := fun hd => by
    rcases hd with hd | hd <;> rw [hd] at h <;> cases h
    · exact State.portDone_leads hC
    · exact .refl s
  have pumped : ∀ u : State, s.Leads C u → s.Leads C u.pump := fun u hu => hu.trans (State.pump_leads u)
  cases c with
  | reset => exact execReset_leads h
  | fetchReadDone => exact completed (by simp only [exec, execFetchReadDone]; split <;> simp)
  | pickupReadDone => exact completed (by simp only [exec, execPickupReadDone]; split <;> simp)
  | anchorReadDone => exact completed (by simp only [exec, execAnchorReadDone]; split <;> simp)
  | chestWriteDone => exact completed (by simp only [exec, execChestWriteDone]; split <;> simp)
  | reportWordDone => exact completed (by simp only [exec, execReportWordDone]; split <;> simp)
  | portAccessDone => exact completed (.inl rfl)
  | writeBackGrant => cases h; exact State.grantWriteBack_leads s
  | frameStart x w o =>
    cases h
    refine pumped _ (.trans ?_ (State.frameBlocks_leads x w o _))
    exact ((State.finishFrame_leads s).to rfl).to (State.frameRefresh_ledger _)
  | repeatGapDue => cases h; exact State.markDue_leads s
  | pendingOnWrite => exact execPendingOnWrite_leads h
  | waitExpiry => cases h; exact pumped _ (State.expireWait_leads s)
  | windowClose => cases h; exact pumped _ (State.closeWindow_leads s)
  | staleWaitClearAnswer => cases h; exact pumped _ (State.takeClearAnswer_leads s)
  | cancelAssert => exact stage_leads (pumped _ (State.runCancelAssert_leads s)) h
  | cancelRelease => exact stage_leads (pumped _ (State.runCancelRelease_leads s)) h
  | windDrop => exact stage_leads (pumped _ (State.runDrop_leads s)) h
  | windConfirmed => exact stage_leads (pumped _ (State.runConfirm_leads s)) h
  | windLimit => exact stage_leads (pumped _ (State.runLimit_leads s)) h
  | holdExpiry => exact stage_leads (State.runHold_leads s) h
  | slotEvent k b =>
    cases h
    exact pumped _ ((State.applyPickup_leads _ _ _).trans (State.applyPickup_leads _ _ _))
  | timeout k => cases h; exact State.applyPickup_leads _ _ _
  | release => exact execRelease_leads h
  | sweepWrite => exact execSweepWrite_leads h
  | sweepEnd => exact execSweepEnd_leads h
  | reportTaken b => exact execReportTaken_leads b h
  | recordWriteBegin => exact execRecordWriteBegin_leads h
  | refreshBegin => exact execRefreshBegin_leads h
  | scoreCommit | emptyCommit | scoreEdit | chestWrite | chestRead | logStatusWrite | stopMaskWrite | pickupCommit
  | runBlockWrite | commandNone | start | stop | resume | commandUnknown | consumerIndexWrite | anchorCommit
  | otherWrite => exact access _ rfl

end Sys2Proof.Machine
end

section
/-! What every primitive change of the ledger keeps, and the statement about every step that follows. -/

namespace Sys2Proof.Machine

variable {C : Prop}

/-! ### Insertions and removals -/

theorem holdInsert_perm (e : HoldEntry) (q : List HoldEntry) : (holdInsert e q).Perm (e :: q) := by
  induction q with
  | nil => exact .refl _
  | cons f q ih =>
    unfold holdInsert
    split
    · exact .refl _
    · exact (ih.cons f).trans (.swap e f q)

theorem cueInsert_perm (e : CueEntry) (q : List CueEntry) : (cueInsert e q).Perm (e :: q) := by
  induction q with
  | nil => exact .refl _
  | cons f q ih =>
    unfold cueInsert
    split
    · exact .refl _
    · exact (ih.cons f).trans (.swap e f q)

theorem admissionReplace_slots (n : Nat) (v : Word) (l : List AdmissionEntry) :
    (admissionReplace n v l).map AdmissionEntry.slot = l.map AdmissionEntry.slot := by
  unfold admissionReplace
  rw [List.map_map]
  refine List.map_congr_left fun e _ => ?_
  simp only [Function.comp_apply]
  split <;> rfl

theorem mem_admissionRemove {n m : Nat} {l : List AdmissionEntry} :
    m ∈ (admissionRemove n l).map AdmissionEntry.slot ↔ m ≠ n ∧ m ∈ l.map AdmissionEntry.slot := by
  simp only [admissionRemove, List.mem_map, List.mem_filter, bne_iff_ne]
  constructor
  · rintro ⟨e, ⟨he, hn⟩, rfl⟩; exact ⟨hn, e, he, rfl⟩
  · rintro ⟨hn, e, he, rfl⟩; exact ⟨e, ⟨he, hn⟩, rfl⟩

theorem offWrites_cons (x : FifoEntry) (q : List FifoEntry) :
    offWrites (x :: q) = if x.on then offWrites q else { x with sweep := false } :: offWrites q := by
  cases hx : x.on <;> simp [offWrites, Machine.untagged, hx]

theorem offWrites_length (q : List FifoEntry) : (offWrites q).length ≤ q.length := by
  simpa [offWrites, Machine.untagged] using List.length_filter_le (fun e => !e.on) q

/-! ### Capacities (R3, R22, R44, R98, R165, R168) -/

/-- No collection holds more than its rule allows, and no loss count exceeds its limit. -/
structure Ledger.Within (h : Ledger) : Prop where
  list      : h.list.length ≤ Config.admissionCapacity
  hold      : h.hold.length ≤ Config.holdCapacity
  cues      : h.cues.length ≤ Config.cueCapacity
  fifo      : h.fifo.length ≤ Config.fifoCapacity
  queue     : h.queue.length ≤ Config.reportCapacity
  lostCount : h.lostCount ≤ Config.lostLimit
  lostTotal : h.lostTotal ≤ Config.lostLimit

theorem State.withinCapacity_iff (s : State) : s.withinCapacity = true ↔ s.ledger.Within := by
  simp only [State.withinCapacity, Bool.and_eq_true, decide_eq_true_eq]
  exact ⟨fun ⟨⟨⟨⟨⟨⟨h1, h2⟩, h3⟩, h4⟩, h5⟩, h6⟩, h7⟩ => ⟨h1, h2, h3, h4, h5, h6, h7⟩,
    fun ⟨h1, h2, h3, h4, h5, h6, h7⟩ => ⟨⟨⟨⟨⟨⟨h1, h2⟩, h3⟩, h4⟩, h5⟩, h6⟩, h7⟩⟩

theorem Ledger.Move.within {h k : Ledger} (m : h.Move C k) (w : h.Within) : k.Within := by
  have rest_le : ∀ {e rest}, h.list = e :: rest → rest.length ≤ Config.admissionCapacity := fun hl => by
    have := w.list; rw [hl, List.length_cons] at this; omega
  cases m with
  | listed n v _ hl => exact { w with list := by simpa using hl }
  | recommitted => exact { w with list := by simpa [admissionReplace] using w.list }
  | unlisted | abandoned => exact { w with list := (List.length_filter_le _ _).trans w.list }
  | refused e rest hl => exact { w with list := rest_le hl }
  | noteAdmitted e rest x hl _ _ hc =>
    exact { w with list := rest_le hl, hold := (holdInsert_perm x h.hold).length_eq ▸ hc }
  | cueAdmitted e rest x hl _ _ hc =>
    exact { w with list := rest_le hl, cues := (cueInsert_perm x h.cues).length_eq ▸ hc }
  | notesGone _ _ hg => exact { w with hold := hg.sub.length_le.trans w.hold }
  | cuesGone _ _ hg => exact { w with cues := hg.sub.length_le.trans w.cues }
  | emptied => exact { w with list := Nat.zero_le _, hold := Nat.zero_le _, cues := Nat.zero_le _ }
  | queued x hc =>
    have : h.fifo.length < Config.fifoCapacity := Nat.lt_of_le_of_lt (Nat.le_add_right _ _) hc
    exact { w with fifo := by simpa using this }
  | untagged => exact { w with fifo := by simpa [Machine.untagged] using w.fifo }
  | silenced =>
    exact { w with fifo := (offWrites_length h.fifo).trans w.fifo }
  | flushed => exact { w with fifo := Nat.zero_le _ }
  | headWritten => exact { w with fifo := (List.tail_sublist h.fifo).length_le.trans w.fifo }
  | reported q m n hq hm hn =>
    exact { w with
      queue := hq.trans (max_le le_rfl w.queue), lostCount := hm.trans (max_le le_rfl w.lostCount),
      lostTotal := hn.trans (max_le le_rfl w.lostTotal) }
  | fetched | begun | sounded | soundingMapped | soundingReset | headGranted | portFreed | writeBackAsked
  | writeBacksFewer | pickupAsked | pickupsNoted | pickupsFewer => exact { w with }

/-! ### Lists with one entry for a division or a pickup (R54, R163) -/

/-- At most one write-back pends for a division, and a pickup is listed once. -/
structure Ledger.Distinct (h : Ledger) : Prop where
  writeBacks : (h.writeBacks.map WriteBack.division).Nodup
  pickups    : (h.pickups.map PickupFetch.pickup).Nodup

theorem State.listsDistinct_iff (s : State) : s.listsDistinct = true ↔ s.ledger.Distinct := by
  simp only [State.listsDistinct, Bool.and_eq_true, decide_eq_true_eq]
  exact ⟨fun ⟨h1, h2⟩ => ⟨h1, h2⟩, fun ⟨h1, h2⟩ => ⟨h1, h2⟩⟩

theorem writeBackRequest_nodup (d : Division) (mask : Word) {l : List WriteBack}
    (h : (l.map WriteBack.division).Nodup) : ((writeBackRequest d mask l).map WriteBack.division).Nodup := by
  unfold writeBackRequest
  split
  · rw [List.map_map]
    refine (List.map_congr_left fun e _ => ?_) ▸ h
    simp only [Function.comp_apply]
    split <;> rfl
  · next hd =>
    rw [List.map_append, List.nodup_append]
    refine ⟨h, List.nodup_singleton _, fun a ha b hb hab => hd ?_⟩
    obtain ⟨e, he, rfl⟩ := List.mem_map.1 ha
    exact List.any_eq_true.2 ⟨e, he, by simpa using hab.trans (List.mem_singleton.1 hb)⟩

theorem pickupListAdd_nodup (k : PickupNo) (v : Word) {l : List PickupFetch}
    (h : (l.map PickupFetch.pickup).Nodup) : ((pickupListAdd k v l).map PickupFetch.pickup).Nodup := by
  unfold pickupListAdd
  split
  · rw [List.map_map]
    refine (List.map_congr_left fun e _ => ?_) ▸ h
    simp only [Function.comp_apply]
    split <;> rfl
  · next hd =>
    rw [List.map_append, List.nodup_append]
    refine ⟨h, List.nodup_singleton _, fun a ha b hb hab => hd ?_⟩
    obtain ⟨e, he, rfl⟩ := List.mem_map.1 ha
    exact List.any_eq_true.2 ⟨e, he, by simpa using hab.trans (List.mem_singleton.1 hb)⟩

/-- The noted pickups are listed in pickup order, each once (R160). -/
theorem notedFetches_nodup (noted : Vector (Option Word) 12) :
    ((notedFetches noted).map PickupFetch.pickup).Nodup := by
  have sub : ∀ l : List (Fin 12), ((l.filterMap fun k =>
      (noted[k]).map fun v => ({ pickup := k, carried := v } : PickupFetch)).map PickupFetch.pickup).Sublist l := by
    intro l
    induction l with
    | nil => exact .slnil
    | cons k l ih =>
      rw [List.filterMap_cons]
      cases noted[k] with
      | none => exact ih.cons k
      | some v => exact ih.cons_cons k
  exact (List.nodup_finRange 12).sublist (sub _)

theorem Ledger.Move.distinct {h k : Ledger} (m : h.Move C k) (w : h.Distinct) : k.Distinct := by
  cases m with
  | writeBackAsked d mask => exact { w with writeBacks := writeBackRequest_nodup d mask w.writeBacks }
  | writeBacksFewer l hl => exact { w with writeBacks := w.writeBacks.sublist (hl.map _) }
  | pickupAsked k v => exact { w with pickups := pickupListAdd_nodup k v w.pickups }
  | pickupsNoted noted => exact { w with pickups := notedFetches_nodup noted }
  | pickupsFewer l hl => exact { w with pickups := w.pickups.sublist (hl.map _) }
  | _ => exact { w with }

/-! ### Holder counts (R38) -/

/-- No holder count exceeds 7. -/
def Ledger.HoldersLegal (h : Ledger) : Prop := ∀ x ∈ h.sounding, x.2.holders ≤ Config.holderLimit

theorem State.holdersLegal_iff (s : State) : s.holdersLegal = true ↔ s.ledger.HoldersLegal := by
  simp [State.holdersLegal, Ledger.HoldersLegal, State.ledger]

/-- What a table reads is listed, or the default. -/
theorem Table.get_mem {β : Type} (d : β) (t : Table β) (a : Nat) :
    Table.get d t a = d ∨ (a, Table.get d t a) ∈ t := by
  induction t with
  | nil => exact .inl rfl
  | cons e t ih =>
    obtain ⟨k, w⟩ := e
    by_cases hk : k = a
    · right; simp [Table.get, hk]
    · simp only [Table.get, hk, if_false]
      exact ih.imp_right (List.mem_cons_of_mem _)

/-- Every entry of a mapped table is a mapped entry. -/
theorem Table.mem_mapValues_value {β : Type} [DecidableEq β] {d : β} (f : β → β) (t : Table β) (e : Nat × β)
    (h : e ∈ Table.mapValues d f t) : ∃ v, (e.1, v) ∈ t ∧ e.2 = f v := by
  induction t with
  | nil => simp [Table.mapValues] at h
  | cons x t ih =>
    obtain ⟨k, w⟩ := x
    have later : e ∈ Table.mapValues d f t → ∃ v, (e.1, v) ∈ (k, w) :: t ∧ e.2 = f v := fun h => by
      obtain ⟨v, hv, he⟩ := ih h
      exact ⟨v, List.mem_cons_of_mem _ hv, he⟩
    unfold Table.mapValues at h
    split at h
    · exact later h
    · rcases List.mem_cons.1 h with rfl | h
      · exact ⟨w, List.mem_cons_self, rfl⟩
      · exact later h

theorem Ledger.Move.holdersLegal {h k : Ledger} (m : h.Move C k) (w : h.HoldersLegal) : k.HoldersLegal := by
  cases m with
  | sounded a e he =>
    intro x hx
    rcases Table.mem_set _ _ _ _ hx with rfl | hx
    · refine he.trans (max_le le_rfl ?_)
      rcases Table.get_mem SoundEntry.quiet h.sounding a with hd | hd
      · rw [hd]; exact Nat.zero_le _
      · exact w _ hd
    · exact w x hx
  | soundingMapped f hf =>
    intro x hx
    obtain ⟨v, hv, he⟩ := Table.mem_mapValues_value f _ x hx
    rw [he]; exact (hf v).trans (w _ hv)
  | soundingReset => exact nofun
  | _ => exact w

/-! ### The chest write FIFO with its granted write (R44, R172) -/

/-- The FIFO holds 16 entries at most, a removed one whose write is granted among them, and a granted write that it
still holds is its head's. -/
structure Ledger.FifoAccounted (h : Ledger) : Prop where
  count : h.count ≤ Config.fifoCapacity
  head  : ∀ e, h.granted = some (e, true) →
    ∃ x rest, h.fifo = x :: rest ∧ x.address = e.address ∧ x.stored = e.stored ∧ x.on = e.on

theorem grantedWrite_eq_some {p : Option PortAccess} {e : FifoEntry} {live : Bool} :
    grantedWrite p = some (e, live) ↔ p = some (.chestWrite e live) := by
  constructor
  · intro h
    unfold grantedWrite at h
    split at h <;> simp_all
  · rintro rfl; rfl

theorem State.fifoAccounted_iff (s : State) : s.fifoAccounted = true ↔ s.ledger.FifoAccounted := by
  unfold State.fifoAccounted
  rw [Bool.and_eq_true, decide_eq_true_eq, s.fifoCount_eq]
  refine ⟨fun ⟨h1, h2⟩ => ⟨h1, fun e he => ?_⟩, fun ⟨h1, h2⟩ => ⟨h1, ?_⟩⟩
  · rw [grantedWrite_eq_some.1 he] at h2
    show ∃ x rest, s.chest.fifo = x :: rest ∧ _
    cases hf : s.chest.fifo <;> simp_all
  · split
    · next e hp =>
      obtain ⟨x, rest, hf, hx⟩ := h2 e (grantedWrite_eq_some.2 hp)
      have hf : s.chest.fifo = x :: rest := hf
      simp [hf, hx]
    · rfl

/-- A sweep that removes the on-writes takes at least the head with its granted write (R47; log entry 20). -/
theorem Ledger.FifoAccounted.silenced {h : Ledger} (w : h.FifoAccounted) :
    Ledger.FifoAccounted { h with fifo := offWrites h.fifo, granted := removeGranted false h.granted } := by
  obtain ⟨hc, hh⟩ := w
  have hlen := offWrites_length h.fifo
  cases hg : h.granted with
  | none => exact ⟨by simp [Ledger.count, hg, removeGranted, removedCount] at hc ⊢; omega, nofun⟩
  | some g =>
    obtain ⟨e, live⟩ := g
    cases live with
    | false =>
      exact ⟨by simp [Ledger.count, hg, removeGranted, removedCount] at hc ⊢; omega, by simp [removeGranted]⟩
    | true =>
      obtain ⟨x, rest, hf, ha, hs, ho⟩ := hh e hg
      have hrest := offWrites_length rest
      cases hon : e.on with
      | true =>
        refine ⟨?_, by simp [removeGranted, hon]⟩
        simp [Ledger.count, hg, removeGranted, removedCount, hon, hf, offWrites_cons, ho] at hc ⊢
        omega
      | false =>
        refine ⟨?_, fun e' he' => ?_⟩
        · simp [Ledger.count, hg, removeGranted, removedCount, hon] at hc ⊢
          omega
        · simp [removeGranted, hon] at he'
          subst he'
          exact ⟨{ x with sweep := false }, offWrites rest, by simp [hf, offWrites_cons, ho, hon], ha, hs, ho⟩

theorem Ledger.Move.fifoAccounted {h k : Ledger} (m : h.Move C k) (w : h.FifoAccounted) : k.FifoAccounted := by
  obtain ⟨hc, hh⟩ := w
  cases m with
  | queued x hq =>
    refine ⟨by simp [Ledger.count] at hq ⊢; omega, fun e he => ?_⟩
    obtain ⟨y, rest, hf, hy⟩ := hh e he
    exact ⟨y, rest ++ [x], by simp [hf], hy⟩
  | untagged =>
    refine ⟨by simpa [Ledger.count, Machine.untagged] using hc, fun e he => ?_⟩
    obtain ⟨y, rest, hf, hy⟩ := hh e he
    exact ⟨{ y with sweep := false }, Machine.untagged rest, by simp [hf, Machine.untagged], hy⟩
  | silenced => exact Ledger.FifoAccounted.silenced ⟨hc, hh⟩
  | flushed =>
    refine ⟨?_, by simp [removeGranted]⟩
    have : ∀ g, removedCount g ≤ 1 := fun g => by unfold removedCount; split <;> simp
    exact (Nat.add_le_add_left (this _) _).trans (by simp [Config.fifoCapacity])
  | headGranted e rest hf hg =>
    refine ⟨by simpa [Ledger.count, hg, removedCount] using hc, fun e' he' => ?_⟩
    cases he'
    exact ⟨e, rest, hf, rfl, rfl, rfl⟩
  | portFreed => exact ⟨(Nat.le_add_right _ _).trans hc, nofun⟩
  | headWritten hg =>
    refine ⟨?_, fun e he => by rw [hg] at he; cases he⟩
    have := (List.tail_sublist h.fifo).length_le
    simp [Ledger.count] at hc ⊢; omega
  | _ => exact ⟨hc, hh⟩

/-! ### Each slot in the one collection that its state names (R2, R6) -/

/-- Slot n, in state v, stands in the collection that v names and in no other; a slot that is being fetched heads the
list. -/
structure Ledger.Names (h : Ledger) (n : Nat) (v : SlotState) : Prop where
  listed   : (v = .pending ∨ v = .fetching) ↔ n ∈ h.list.map AdmissionEntry.slot
  noted    : v = .heldNote ↔ n ∈ h.hold.map HoldEntry.slot
  cued     : v = .heldCue ↔ n ∈ h.cues.map CueEntry.slot
  fetching : v = .fetching ↔ h.fetch ≠ none ∧ h.heads n

/-- The slot map is in canonical form, no slot stands twice in a collection, each stands in the one that its state
names, and a fetch in progress has a head to fetch. -/
structure Ledger.SlotsSound (h : Ledger) : Prop where
  canonical : Table.wf SlotState.free h.slots = true
  listOnce  : (h.list.map AdmissionEntry.slot).Nodup
  holdOnce  : (h.hold.map HoldEntry.slot).Nodup
  cuesOnce  : (h.cues.map CueEntry.slot).Nodup
  names     : ∀ n, h.Names n (h.slot n)
  headed    : h.fetch ≠ none → h.list ≠ []

theorem Ledger.heads_cons {h : Ledger} {e : AdmissionEntry} {rest : List AdmissionEntry} (hl : h.list = e :: rest)
    (n : Nat) : h.heads n ↔ e.slot = n := by
  unfold Ledger.heads
  rw [hl]
  constructor
  · rintro ⟨_, _, h1, h2⟩; cases h1; exact h2
  · exact fun h => ⟨e, rest, rfl, h⟩

theorem Ledger.heads_iff (h : Ledger) (n : Nat) : h.heads n ↔ (h.list.map AdmissionEntry.slot).head? = some n := by
  unfold Ledger.heads
  cases h.list <;> simp

theorem State.slotsSound_iff (s : State) :
    s.slotsCanonical ∧ s.slotsDistinct = true ∧ s.slotsNamed ↔ s.ledger.SlotsSound := by
  have hm : ∀ {α : Type} (f : α → Nat) (l : List α) (n : Nat), (∃ e ∈ l, f e = n) ↔ n ∈ l.map f :=
    fun f l n => List.mem_map.symm
  simp only [State.slotsDistinct, Bool.and_eq_true, decide_eq_true_eq]
  constructor
  · rintro ⟨hw, ⟨⟨h1, h2⟩, h3⟩, hn, hf⟩
    refine ⟨hw, h1, h2, h3, fun n => ?_, hf⟩
    obtain ⟨hl, hh, hc, hg⟩ := hn n
    exact ⟨hl.trans (hm _ _ _), hh.trans (hm _ _ _), hc.trans (hm _ _ _), hg⟩
  · rintro ⟨hw, h1, h2, h3, hn, hf⟩
    refine ⟨hw, ⟨⟨h1, h2⟩, h3⟩, fun n => ?_, hf⟩
    obtain ⟨hl, hh, hc, hg⟩ := hn n
    exact ⟨hl.trans (hm _ _ _).symm, hh.trans (hm _ _ _).symm, hc.trans (hm _ _ _).symm, hg⟩

namespace Ledger.SlotsSound

variable {h : Ledger} (S : h.SlotsSound)
include S

/-! Which collections a slot stands in, by its state. -/

theorem not_listed {n : Nat} (hp : h.slot n ≠ .pending) (hf : h.slot n ≠ .fetching) :
    n ∉ h.list.map AdmissionEntry.slot := fun hn => by
  rcases (S.names n).listed.2 hn with k | k
  · exact hp k
  · exact hf k

theorem not_noted {n : Nat} (hs : h.slot n ≠ .heldNote) : n ∉ h.hold.map HoldEntry.slot :=
  fun hn => hs ((S.names n).noted.2 hn)

theorem not_cued {n : Nat} (hs : h.slot n ≠ .heldCue) : n ∉ h.cues.map CueEntry.slot :=
  fun hn => hs ((S.names n).cued.2 hn)

theorem not_fetched {n : Nat} (hs : h.slot n ≠ .fetching) : ¬ (h.fetch ≠ none ∧ h.heads n) :=
  fun hn => hs ((S.names n).fetching.2 hn)

/-- The head of the list is being fetched while a fetch is in progress (R6). -/
theorem head_fetching {e : AdmissionEntry} {rest : List AdmissionEntry} (hl : h.list = e :: rest)
    (hf : h.fetch ≠ none) : h.slot e.slot = .fetching :=
  (S.names e.slot).fetching.2 ⟨hf, (heads_cons hl _).2 rfl⟩

/-- The head of the list stands in no other place of it. -/
theorem head_once {e : AdmissionEntry} {rest : List AdmissionEntry} (hl : h.list = e :: rest) :
    e.slot ∉ rest.map AdmissionEntry.slot ∧ (rest.map AdmissionEntry.slot).Nodup := by
  have := S.listOnce
  rw [hl] at this
  exact List.nodup_cons.1 this

/-- The slot map after one slot's state is set: that slot in its new collection, every other where it was. -/
theorem set {k : Ledger} (n : Nat) (v : SlotState) (hk : k.slots = Table.set .free h.slots n v)
    (listOnce : (k.list.map AdmissionEntry.slot).Nodup) (holdOnce : (k.hold.map HoldEntry.slot).Nodup)
    (cuesOnce : (k.cues.map CueEntry.slot).Nodup) (own : k.Names n v)
    (other : ∀ m, m ≠ n → k.Names m (h.slot m)) (headed : k.fetch ≠ none → k.list ≠ []) : k.SlotsSound := by
  have hslot : ∀ m, k.slot m = if m = n then v else h.slot m := fun m => by
    unfold Ledger.slot; rw [hk, Table.get_set S.canonical]
  refine ⟨hk ▸ Table.wf_set _ _ _ S.canonical, listOnce, holdOnce, cuesOnce, fun m => ?_, headed⟩
  rw [hslot]
  split
  · next hm => exact hm ▸ own
  · next hm => exact other m hm

/-- The slot at the head of the list leaves it at the end of its fetch (R7). -/
theorem leave {k : Ledger} {e : AdmissionEntry} {rest : List AdmissionEntry} (v : SlotState)
    (hl : h.list = e :: rest) (hf : h.fetch ≠ none) (hk : k.slots = Table.set .free h.slots e.slot v)
    (kl : k.list = rest) (kf : k.fetch = none) (hv : v ≠ .pending ∧ v ≠ .fetching)
    (holdOnce : (k.hold.map HoldEntry.slot).Nodup) (cuesOnce : (k.cues.map CueEntry.slot).Nodup)
    (hold : ∀ m, m ∈ k.hold.map HoldEntry.slot ↔ m = e.slot ∧ v = .heldNote ∨ m ∈ h.hold.map HoldEntry.slot)
    (cues : ∀ m, m ∈ k.cues.map CueEntry.slot ↔ m = e.slot ∧ v = .heldCue ∨ m ∈ h.cues.map CueEntry.slot) :
    k.SlotsSound := by
  obtain ⟨hnot, honce⟩ := S.head_once hl
  have hs := S.head_fetching hl hf
  have hnn := S.not_noted (n := e.slot) (by rw [hs]; decide)
  have hnc := S.not_cued (n := e.slot) (by rw [hs]; decide)
  refine S.set e.slot v hk (kl ▸ honce) holdOnce cuesOnce ⟨?_, ?_, ?_, ?_⟩ (fun m hm => ?_) (fun hk => absurd kf hk)
  · rw [kl]; simp [hv, hnot]
  · rw [hold]; simp [hnn]
  · rw [cues]; simp [hnc]
  · rw [kf]; simp [hv]
  · obtain ⟨nl, nn, nc, nf⟩ := S.names m
    have hnf : h.slot m ≠ .fetching := fun hx => hm ((heads_cons hl m).1 (nf.1 hx).2).symm
    refine ⟨?_, ?_, ?_, ?_⟩
    · rw [nl, hl, kl, List.map_cons, List.mem_cons]; simp [hm]
    · rw [nn, hold]; simp [hm]
    · rw [nc, cues]; simp [hm]
    · rw [kf]; simp [hnf]

/-- Slots whose entries left a collection read FREE, every other as before. -/
theorem freed {k : Ledger} {freed : List Nat} (hk : k.slots = freeAll freed h.slots)
    (kl : k.list = h.list) (kf : k.fetch = h.fetch)
    (holdOnce : (k.hold.map HoldEntry.slot).Nodup) (cuesOnce : (k.cues.map CueEntry.slot).Nodup)
    (held : ∀ n ∈ freed, h.slot n = .heldNote ∨ h.slot n = .heldCue)
    (hold : ∀ n, n ∈ k.hold.map HoldEntry.slot ↔ n ∉ freed ∧ n ∈ h.hold.map HoldEntry.slot)
    (cues : ∀ n, n ∈ k.cues.map CueEntry.slot ↔ n ∉ freed ∧ n ∈ h.cues.map CueEntry.slot) : k.SlotsSound := by
  refine ⟨hk ▸ freeAll_wf _ S.canonical, kl ▸ S.listOnce, holdOnce, cuesOnce, fun n => ?_, kl ▸ kf ▸ S.headed⟩
  have hheads : k.heads n ↔ h.heads n := by unfold Ledger.heads; rw [kl]
  have hslot : k.slot n = if n ∈ freed then .free else h.slot n := by
    unfold Ledger.slot; rw [hk, freeAll_get freed S.canonical]
  obtain ⟨nl, nn, nc, nf⟩ := S.names n
  rw [hslot]
  split
  · next hn =>
    have hne : h.slot n ≠ .pending ∧ h.slot n ≠ .fetching := by
      rcases held n hn with k | k <;> rw [k] <;> decide
    have hnl := S.not_listed hne.1 hne.2
    have hnf := S.not_fetched hne.2
    exact ⟨by rw [kl]; simpa using hnl, by rw [hold]; simp [hn], by rw [cues]; simp [hn],
      by rw [kf, hheads]; simpa using hnf⟩
  · next hn =>
    exact ⟨by rw [kl]; exact nl, by rw [hold]; simp [hn, nn], by rw [cues]; simp [hn, nc],
      by rw [kf, hheads]; exact nf⟩

/-- A listed slot leaves the list and is FREE (R5). -/
theorem unlist {n : Nat} {fetch : Option (List Word)} (hs : h.slot n = .pending ∨ h.slot n = .fetching)
    (hf : ∀ m, m ≠ n → (h.slot m = .fetching ↔ fetch ≠ none ∧ h.heads m))
    (hh : fetch ≠ none → h.fetch ≠ none ∧ h.slot n ≠ .fetching) :
    Ledger.SlotsSound { h with
      list := admissionRemove n h.list, slots := Table.set .free h.slots n .free, fetch := fetch } := by
  have hnn := S.not_noted (n := n) (by rcases hs with k | k <;> rw [k] <;> decide)
  have hnc := S.not_cued (n := n) (by rcases hs with k | k <;> rw [k] <;> decide)
  have head : fetch ≠ none → ∃ e rest, h.list = e :: rest ∧ e.slot ≠ n
      ∧ admissionRemove n h.list = e :: admissionRemove n rest := fun hk => by
    obtain ⟨hf, hne⟩ := hh hk
    obtain ⟨e, rest, hl⟩ := List.exists_cons_of_ne_nil (S.headed hf)
    have hen : e.slot ≠ n := fun hx => hne (hx ▸ S.head_fetching hl hf)
    exact ⟨e, rest, hl, hen, by rw [hl]; simp [admissionRemove, hen]⟩
  have hheads : ∀ m, fetch ≠ none →
      (Ledger.heads { h with list := admissionRemove n h.list } m ↔ h.heads m) := fun m hk => by
    obtain ⟨e, rest, hl, _, hr⟩ := head hk
    rw [heads_cons hl, heads_cons (h := { h with list := admissionRemove n h.list }) hr]
  refine S.set n .free rfl ?_ S.holdOnce S.cuesOnce ⟨?_, by simpa using hnn, by simpa using hnc, ?_⟩ (fun m hm => ?_) ?_
  · exact S.listOnce.sublist (List.filter_sublist.map _)
  · simp [mem_admissionRemove]
  · simp only [reduceCtorEq, false_iff, not_and]
    intro hk hd
    obtain ⟨e, rest, hl, hen, _⟩ := head hk
    exact hen ((heads_cons hl n).1 ((hheads n hk).1 hd))
  · obtain ⟨nl, nn, nc, _⟩ := S.names m
    refine ⟨by rw [nl, mem_admissionRemove]; simp [hm], nn, nc, (hf m hm).trans ?_⟩
    exact and_congr_right fun hk => (hheads m hk).symm
  · intro hk
    obtain ⟨_, _, _, _, hr⟩ := head hk
    simp [hr]

end Ledger.SlotsSound

/-- Of a collection's slots, those freed have left it and the others stay. -/
theorem Gone.mem_iff {α : Type} {slotOf : α → Nat} {was now : List α} {freed : List Nat}
    (g : Gone slotOf was now freed) (once : (was.map slotOf).Nodup) (n : Nat) :
    n ∈ now.map slotOf ↔ n ∉ freed ∧ n ∈ was.map slotOf := by
  constructor
  · intro hn
    obtain ⟨e, he, rfl⟩ := List.mem_map.1 hn
    exact ⟨g.apart once e he, List.mem_map_of_mem (g.sub.subset he)⟩
  · rintro ⟨hn, hw⟩
    obtain ⟨e, he, rfl⟩ := List.mem_map.1 hw
    rcases g.left e he with h | h
    · exact List.mem_map_of_mem h
    · exact absurd h hn

theorem Ledger.Move.slotsSound {h k : Ledger} (m : h.Move True k) (S : h.SlotsSound) : k.SlotsSound := by
  cases m with
  | listed n v hs _ =>
    have hs := hs trivial
    have hl := S.not_listed (n := n) (by rw [hs]; decide) (by rw [hs]; decide)
    have hheads : ∀ m, h.fetch ≠ none →
        (Ledger.heads { h with list := h.list ++ [{ slot := n, commit := v }] } m ↔ h.heads m) := fun m hf => by
      obtain ⟨e, rest, hl⟩ := List.exists_cons_of_ne_nil (S.headed hf)
      rw [heads_cons hl, heads_cons (h := { h with list := _ }) (congrArg (· ++ [_]) hl)]
    refine S.set n .pending rfl ?_ S.holdOnce S.cuesOnce ⟨by simp, ?_, ?_, ?_⟩ (fun m hm => ?_) (by simp)
    · rw [List.map_append, List.nodup_append]
      exact ⟨S.listOnce, List.nodup_singleton _,
        fun a ha b hb hab => hl ((hab.trans (List.mem_singleton.1 hb) : a = n) ▸ ha)⟩
    · simpa using S.not_noted (n := n) (by rw [hs]; decide)
    · simpa using S.not_cued (n := n) (by rw [hs]; decide)
    · simp only [reduceCtorEq, false_iff, not_and]
      exact fun hf hd => S.not_fetched (n := n) (by rw [hs]; decide) ⟨hf, (hheads n hf).1 hd⟩
    · obtain ⟨nl, nn, nc, nf⟩ := S.names m
      exact ⟨by rw [nl]; simp [hm], nn, nc, nf.trans (and_congr_right fun hf => (hheads m hf).symm)⟩
  | recommitted n v =>
    have hslots := admissionReplace_slots n v h.list
    have hheads : ∀ m, Ledger.heads { h with list := admissionReplace n v h.list } m ↔ h.heads m := fun m => by
      rw [Ledger.heads_iff, Ledger.heads_iff, hslots]
    refine ⟨S.canonical, hslots ▸ S.listOnce, S.holdOnce, S.cuesOnce, fun m => ?_, fun hf => ?_⟩
    · obtain ⟨nl, nn, nc, nf⟩ := S.names m
      exact ⟨nl.trans (by rw [hslots]), nn, nc, nf.trans (and_congr_right fun _ => (hheads m).symm)⟩
    · simpa [admissionReplace] using S.headed hf
  | fetched ws hf =>
    have hf : h.fetch ≠ none := hf.elim id fun ⟨n, hn⟩ => ((S.names n).fetching.1 hn).1
    refine ⟨S.canonical, S.listOnce, S.holdOnce, S.cuesOnce, fun m => ?_, fun _ => S.headed hf⟩
    obtain ⟨nl, nn, nc, nf⟩ := S.names m
    exact ⟨nl, nn, nc, nf.trans (by simp [hf]; rfl)⟩
  | begun e rest hl hf =>
    have hlist : e.slot ∈ h.list.map AdmissionEntry.slot := by simp [hl]
    have hs : h.slot e.slot = .pending := ((S.names e.slot).listed.2 hlist).resolve_right
      fun hx => ((S.names e.slot).fetching.1 hx).1 hf
    refine S.set e.slot .fetching rfl S.listOnce S.holdOnce S.cuesOnce ⟨by simpa using hlist, ?_, ?_, ?_⟩
      (fun m hm => ?_) (fun _ => by simp [hl])
    · simpa using S.not_noted (n := e.slot) (by rw [hs]; decide)
    · simpa using S.not_cued (n := e.slot) (by rw [hs]; decide)
    · simp only [ne_eq, reduceCtorEq, not_false_iff, true_and, true_iff]
      exact ⟨e, rest, hl, rfl⟩
    · obtain ⟨nl, nn, nc, nf⟩ := S.names m
      refine ⟨nl, nn, nc, ⟨fun hx => absurd hf (nf.1 hx).1, fun ⟨_, hx⟩ => ?_⟩⟩
      exact absurd ((heads_cons hl m).1 hx).symm hm
  | unlisted n hs =>
    exact S.unlist (.inl hs) (fun m _ => (S.names m).fetching) fun hf => ⟨hf, by rw [hs]; decide⟩
  | abandoned n hs =>
    refine S.unlist (.inr hs) (fun m hm => ?_) (fun hf => absurd rfl hf)
    obtain ⟨_, e, rest, hl, rfl⟩ := (S.names n).fetching.1 hs
    simp only [ne_eq, not_true_eq_false, false_and, iff_false]
    exact fun hx => hm ((heads_cons hl m).1 ((S.names m).fetching.1 hx).2).symm
  | refused e rest hl hf =>
    exact S.leave .free hl hf rfl rfl rfl (by decide) S.holdOnce S.cuesOnce (by simp) (by simp)
  | noteAdmitted e rest x hl hf hx _ =>
    have hp := (holdInsert_perm x h.hold).map HoldEntry.slot
    have hnew := S.not_noted (n := x.slot) (by rw [hx, S.head_fetching hl hf]; decide)
    refine S.leave .heldNote hl hf rfl rfl rfl (by decide) ?_ S.cuesOnce (fun m => ?_) (by simp)
    · exact hp.nodup_iff.2 (List.nodup_cons.2 ⟨hnew, S.holdOnce⟩)
    · rw [hp.mem_iff, List.map_cons, List.mem_cons, hx]; simp
  | cueAdmitted e rest x hl hf hx _ =>
    have hp := (cueInsert_perm x h.cues).map CueEntry.slot
    have hnew := S.not_cued (n := x.slot) (by rw [hx, S.head_fetching hl hf]; decide)
    refine S.leave .heldCue hl hf rfl rfl rfl (by decide) S.holdOnce ?_ (by simp) (fun m => ?_)
    · exact hp.nodup_iff.2 (List.nodup_cons.2 ⟨hnew, S.cuesOnce⟩)
    · rw [hp.mem_iff, List.map_cons, List.mem_cons, hx]; simp
  | notesGone now freed hg hs =>
    have held : ∀ n ∈ freed, h.slot n = .heldNote := fun n hn =>
      (hs n hn).elim (fun ⟨e, he, hen⟩ => (S.names n).noted.2 (List.mem_map.2 ⟨e, he, hen⟩)) id
    refine S.freed rfl rfl rfl (S.holdOnce.sublist (hg.sub.map _)) S.cuesOnce (fun n hn => .inl (held n hn))
      (hg.mem_iff S.holdOnce) fun n => ⟨fun hn => ⟨fun hf => ?_, hn⟩, And.right⟩
    exact S.not_cued (n := n) (by rw [held n hf]; decide) hn
  | cuesGone now freed hg hs =>
    have held : ∀ n ∈ freed, h.slot n = .heldCue := fun n hn =>
      (hs n hn).elim (fun ⟨e, he, hen⟩ => (S.names n).cued.2 (List.mem_map.2 ⟨e, he, hen⟩)) id
    refine S.freed rfl rfl rfl S.holdOnce (S.cuesOnce.sublist (hg.sub.map _)) (fun n hn => .inr (held n hn))
      (fun n => ⟨fun hn => ⟨fun hf => ?_, hn⟩, And.right⟩) (hg.mem_iff S.cuesOnce)
    exact S.not_noted (n := n) (by rw [held n hf]; decide) hn
  | emptied =>
    refine ⟨rfl, List.nodup_nil, List.nodup_nil, List.nodup_nil, fun n => ?_, fun hf => absurd rfl hf⟩
    exact ⟨by simp [Ledger.slot, Table.get], by simp [Ledger.slot, Table.get], by simp [Ledger.slot, Table.get],
      by simp [Ledger.slot, Table.get]⟩
  | sounded | soundingMapped | soundingReset | queued | untagged | silenced | flushed | headGranted | portFreed
  | headWritten | reported | writeBackAsked | writeBacksFewer | pickupAsked | pickupsNoted | pickupsFewer =>
    exact ⟨S.canonical, S.listOnce, S.holdOnce, S.cuesOnce,
      fun n => ⟨(S.names n).listed, (S.names n).noted, (S.names n).cued, (S.names n).fetching⟩, S.headed⟩

/-! ### Every step (R2, R3, R6, R21, R22, R38, R44, R54, R97, R98, R163, R165, R168, R172) -/

/-- What every primitive change keeps, a state keeps to the states it leads to. -/
theorem State.Leads.keeps {C : Prop} {P : Ledger → Prop} (hP : ∀ {h k : Ledger}, h.Move C k → P h → P k) {s t : State}
    (hst : s.Leads C t) (hs : P s.ledger) : P t.ledger := by
  have key : ∀ {a b : Ledger}, Relation.ReflTransGen (Ledger.Move C) a b → P a → P b := by
    intro a b hab ha
    induction hab with
    | refl => exact ha
    | tail _ m ih => exact hP m ih
  exact key hst hs

theorem step_leads {C : Prop} {s t : State} (hC : C → s.slotsCanonical) (h : step s = .next t) : s.Leads C t := by
  unfold step at h
  split at h
  · cases h; exact .refl s
  · next c rest _ => exact (exec_leads (s := { s with pending := rest }) c hC h).from rfl

end Sys2Proof.Machine

open Sys2Proof Sys2Proof.Machine

/-- Settles O7: every primitive change of the ledger keeps each of the five invariants, and every step is a row of
such changes. -/
theorem stepKeepsCapacities : Obligations.StepKeepsCapacities := by
  intro s t hst
  have leads : s.Leads False t := step_leads False.elim hst
  refine ⟨?_, ?_, fun hc hd hn => ?_, ?_, ?_⟩
  · rw [State.withinCapacity_iff, State.withinCapacity_iff]
    exact leads.keeps Ledger.Move.within
  · rw [State.listsDistinct_iff, State.listsDistinct_iff]
    exact leads.keeps Ledger.Move.distinct
  · have canonical : s.slotsCanonical := by
      simp only [State.tablesCanonical, Bool.and_eq_true] at hc
      exact hc.1.2
    have sound := (step_leads (C := True) (fun _ => canonical) hst).keeps Ledger.Move.slotsSound
      (s.slotsSound_iff.1 ⟨canonical, hd, hn⟩)
    exact (t.slotsSound_iff.2 sound).2
  · rw [State.holdersLegal_iff, State.holdersLegal_iff]
    exact leads.keeps Ledger.Move.holdersLegal
  · rw [State.fifoAccounted_iff, State.fifoAccounted_iff]
    exact leads.keeps Ledger.Move.fifoAccounted
end

section
/-! The state at RESET: its values, and the invariants. -/

namespace Sys2Proof.Machine

/-- Every pickup at RESET has the values of R85. -/
theorem State.reset_pickup (k : PickupNo) : State.reset.link.pickups[k] = Pickup.reset := by
  show (Vector.replicate 12 Pickup.reset)[k] = _
  exact Vector.getElem_replicate _

/-- No slot stands in a collection at RESET (R19). -/
theorem State.reset_slotsNamed : State.reset.slotsNamed :=
  ⟨fun n => ⟨by simp [State.slot, State.reset, Admission.reset, Table.get],
    by simp [State.slot, State.reset, Admission.reset, Release.reset, Table.get],
    by simp [State.slot, State.reset, Admission.reset, Matcher.reset, Table.get],
    by simp [State.slot, State.reset, Admission.reset, Table.get]⟩, fun h => absurd rfl h⟩

end Sys2Proof.Machine

open Sys2Proof Sys2Proof.Machine

/-- Settles O4: each block's reset values, read off block by block. -/
theorem resetValues : Obligations.ResetValues := by
  refine ⟨⟨rfl, rfl, fun _ => rfl⟩, ⟨rfl, rfl, rfl⟩, fun _ _ => rfl, ⟨rfl, rfl, rfl, rfl⟩, fun k => ?_, rfl, ⟨rfl, rfl⟩,
    ⟨rfl, rfl, rfl, rfl, rfl⟩, ⟨rfl, rfl, rfl, rfl, rfl, rfl, rfl, rfl, rfl⟩,
    ⟨rfl, rfl, rfl, rfl, rfl, rfl, rfl, rfl, rfl, rfl⟩, ⟨rfl, rfl, rfl⟩, ⟨rfl, rfl, rfl⟩,
    ⟨rfl, rfl, rfl, rfl, rfl, rfl, rfl, rfl⟩⟩
  rw [State.reset_pickup]
  exact ⟨rfl, rfl, rfl, rfl, rfl, rfl, rfl, rfl, rfl, rfl, rfl⟩

/-- Settles O5: the tables and lists are empty, so the checks evaluate; the naming of slots is `State.reset_slotsNamed`. -/
theorem invariantsHoldAtReset : Obligations.InvariantsHoldAtReset :=
  ⟨rfl, rfl, rfl, rfl, rfl, rfl, State.reset_slotsNamed, rfl, rfl⟩
end

section
/-! The ends of fetch and load reads, and the check code (R6, R10, R11, R158). -/

namespace Sys2Proof.Machine

/-- The effect of an event that leaves no processor access waiting, with what follows it. -/
theorem pumped {c : Instr} {s u v : State} (h : exec c s = .next u.pump) (hu : u = v) (hw : v.path.waiting = none) :
    ∃ t, exec c s = .next t ∧ sameButTraffic v t :=
  ⟨u.pump, h, hu ▸ sameButTraffic_pump u (hu ▸ hw)⟩

/-- The read of a fetch completes (R6). -/
theorem exec_fetchReadDone {s : State} {a : Nat} {discard : Bool} (h : s.path.port = some (.fetchRead a discard)) :
    exec .fetchReadDone s = .next
      (State.complete (.fetchRead a discard) { s with path := { s.path with port := none } }).pump := by
  show execFetchReadDone s = _
  unfold execFetchReadDone
  rw [h]
  simp only [State.portDone_access h]

/-- The read of a load completes (R158). -/
theorem exec_anchorReadDone {s : State} {a : Nat} {discard : Bool} (h : s.path.port = some (.anchorRead a discard)) :
    exec .anchorReadDone s = .next
      (State.complete (.anchorRead a discard) { s with path := { s.path with port := none } }).pump := by
  show execAnchorReadDone s = _
  unfold execAnchorReadDone
  rw [h]
  simp only [State.portDone_access h]

/-- A word read before the last of a fetch is kept (R6). -/
theorem State.fetchWord_kept {s : State} {ws : List Word} (w : Word) (hf : s.admission.fetch = some ws)
    (hl : ws.length < 2) :
    s.fetchWord w = { s with admission := { s.admission with fetch := some (ws ++ [w]) } } := by
  unfold State.fetchWord
  split
  · next h _ => rw [hf] at h; cases h; simp at hl
  · next h _ => rw [hf] at h; cases h; rfl
  · next h => rw [hf] at h; cases h

/-- A word read before the last of a load is kept (R158). -/
theorem State.anchorReadWord_kept {s : State} {ws : List Word} (w : Word) (hw : s.loader.load = some ws)
    (hl : ws.length < 77) :
    s.anchorReadWord w = { s with loader := { s.loader with load := some (ws ++ [w]) } } := by
  unfold State.anchorReadWord
  rw [hw]
  have : (ws ++ [w]).length ≠ Config.anchorWords := by simp [Config.anchorWords]; omega
  simp only [this, if_false]

end Sys2Proof.Machine

open Sys2Proof Sys2Proof.Machine

/-- Settles O27: of a kept read the word joins those before it; an abandoned read frees the port and no more. -/
theorem readWordsKeptOrDiscarded : Obligations.ReadWordsKeptOrDiscarded := by
  intro a s hw
  refine ⟨fun i ws e rest hp _ hf hl _ => ?_, fun hp => ?_, fun ws hp hload hl => ?_, fun hp => ?_⟩
  · exact pumped (exec_fetchReadDone hp) (State.fetchWord_kept _ hf hl) hw
  · exact pumped (exec_fetchReadDone hp) rfl hw
  · exact pumped (exec_anchorReadDone hp) (State.anchorReadWord_kept _ hload hl) hw
  · exact pumped (exec_anchorReadDone hp) rfl hw
end

section
/-! The check code and the tests of R11 on the fields of a record, and the record that fails one (R7, R10 to R12). -/

namespace Sys2Proof.Machine

/-! ### The fields of a score record (R176) -/

theorem commitCheck_eq (c : Word) : commitCheck c = c.toNat % 32 := by simp [commitCheck, field]

theorem commitKind_eq (c : Word) : commitKind c = ScoreKind.ofCode (c.toNat / 8192) := by
  have := c.isLt
  have : c.toNat / 8192 % 8 = c.toNat / 8192 := by omega
  simp [commitKind, field, this]

theorem commitDivision_eq (c : Word) (d : Division) : commitDivision c = d ↔ c.toNat / 2048 % 4 = d.val := by
  simp [commitDivision, field, Fin.ext_iff, Fin.ofNat]

theorem commitKey_eq (c : Word) : commitKey c = c.toNat / 32 % 64 := by simp [commitKey, field]

theorem cueWidth_eq (w : Word) : cueWidth w = w.toNat % 256 := by simp [cueWidth, field]

theorem FetchedRecord.stamp_eq (r : FetchedRecord) : r.stamp = r.w1.toNat * 65536 + r.w0.toNat := rfl

/-- The six bits of a CUE payload that must be 0 (R11, R176). -/
theorem cueRest_eq_zero (w : Word) : field w 10 6 = 0 ↔ w.toNat < 1024 := by
  have := w.isLt
  simp only [field]
  omega

/-- A stamp above 2 147 483 647 is one whose top bit is set (R11). -/
theorem FetchedRecord.stampHigh_iff (r : FetchedRecord) : bit r.w1 15 = true ↔ 2147483647 < r.stamp := by
  have h1 := r.w1.isLt
  have h0 := r.w0.isLt
  rw [FetchedRecord.stamp_eq]
  simp only [bit, field, beq_iff_eq]
  omega

/-! ### The tests of R11 -/

theorem FetchedRecord.payloadFails_iff (r : FetchedRecord) (tmin tmax : Nat) : r.payloadFails tmin tmax = true ↔
    (r.commit.toNat / 8192 = 1 ∨ r.commit.toNat / 8192 = 2) ∧ r.w2.toNat ≠ 0
      ∨ r.commit.toNat / 8192 = 4 ∧ (r.w2.toNat < tmin ∨ tmax < r.w2.toNat)
      ∨ r.commit.toNat / 8192 = 6 ∧ (r.w2.toNat % 256 = 0 ∨ 1024 ≤ r.w2.toNat) := by
  have hk : r.commit.toNat / 8192 < 8 := by have := r.commit.isLt; omega
  have hrest := cueRest_eq_zero r.w2
  unfold FetchedRecord.payloadFails
  rw [commitKind_eq]
  generalize r.commit.toNat / 8192 = k at hk ⊢
  interval_cases k <;> simp [ScoreKind.ofCode, cueWidth_eq, hrest]

theorem le_commitKey_iff (c : Word) : compass (commitDivision c) ≤ commitKey c ↔
    c.toNat / 2048 % 4 = 3 ∧ 31 < c.toNat / 32 % 64 ∨ c.toNat / 2048 % 4 ≠ 3 ∧ 60 < c.toNat / 32 % 64 := by
  have hd := commitDivision_eq c 3
  unfold compass
  rw [commitKey_eq]
  split
  · next h => have := hd.1 h; simp at this; omega
  · next h => have := mt hd.2 h; simp at this; omega

theorem FetchedRecord.rangeFails_iff (r : FetchedRecord) : r.rangeFails = true ↔
    2147483647 < r.stamp
      ∨ (r.commit.toNat / 8192 = 1 ∨ r.commit.toNat / 8192 = 2)
        ∧ (r.commit.toNat / 2048 % 4 = 3 ∧ 31 < r.commit.toNat / 32 % 64
          ∨ r.commit.toNat / 2048 % 4 ≠ 3 ∧ 60 < r.commit.toNat / 32 % 64)
      ∨ r.commit.toNat / 8192 = 3 ∧ r.commit.toNat / 32 % 64 ≠ 0
      ∨ (r.commit.toNat / 8192 = 4 ∨ r.commit.toNat / 8192 = 5 ∨ r.commit.toNat / 8192 = 6)
        ∧ (r.commit.toNat / 2048 % 4 ≠ 0 ∨ r.commit.toNat / 32 % 64 ≠ 0) := by
  have hk : r.commit.toNat / 8192 < 8 := by have := r.commit.isLt; omega
  have hd := commitDivision_eq r.commit 0
  have hc := le_commitKey_iff r.commit
  have hk0 : commitKey r.commit = 0 ↔ r.commit.toNat / 32 % 64 = 0 := by rw [commitKey_eq]
  unfold FetchedRecord.rangeFails
  rw [Bool.or_eq_true, r.stampHigh_iff, commitKind_eq]
  generalize r.commit.toNat / 8192 = k at hk ⊢
  interval_cases k <;> simp [ScoreKind.ofCode, hc, hd, hk0]

theorem FetchedRecord.checkValue_eq (r : FetchedRecord) :
    r.checkValue = (r.w0.toNat + r.w1.toNat + r.w2.toNat + (r.commit.toNat - r.commit.toNat % 32)) % 31 := by
  rw [FetchedRecord.checkValue, commitCheck_eq]

theorem FetchedRecord.checkValue_le (r : FetchedRecord) : r.checkValue ≤ 30 :=
  Nat.le_of_lt_succ (Nat.mod_lt _ (by decide))

/-- The check code fails before any other test (R10, R11). -/
theorem FetchedRecord.formError_check (r : FetchedRecord) (tmin tmax : Nat) :
    r.commit.toNat % 32 ≠ r.checkValue ↔ r.formError tmin tmax = some .check := by
  unfold FetchedRecord.formError
  rw [commitCheck_eq]
  constructor
  · exact fun h => if_pos h
  · intro h hc
    rw [if_neg (not_not.2 hc)] at h
    repeat' split at h
    all_goals cases h

/-- Behind a check code that passes come KIND, PAYLOAD and RANGE, in that order (R11). -/
theorem FetchedRecord.formError_checked (r : FetchedRecord) (tmin tmax : Nat) (h : r.commit.toNat % 32 = r.checkValue) :
    r.formError tmin tmax =
      if r.commit.toNat / 8192 = 7 then some .kind
      else if r.payloadFails tmin tmax then some .payload
      else if r.rangeFails then some .range
      else none := by
  have hk : commitKind r.commit = .illegal ↔ r.commit.toNat / 8192 = 7 := by
    have : r.commit.toNat / 8192 < 8 := by have := r.commit.isLt; omega
    rw [commitKind_eq]
    generalize r.commit.toNat / 8192 = k at this ⊢
    interval_cases k <;> simp [ScoreKind.ofCode]
  unfold FetchedRecord.formError
  rw [commitCheck_eq, if_neg (not_not.2 h)]
  simp only [hk]

/-! ### The end of a fetch -/

/-- The third word ends the fetch: the slot leaves the list, and the record is judged (R7, R11). -/
theorem State.fetchWord_last {s : State} {i : Installed} {w0 w1 : Word} {e : AdmissionEntry}
    {rest : List AdmissionEntry} (w : Word) (hi : s.loader.installed = some i)
    (hf : s.admission.fetch = some [w0, w1]) (hl : s.admission.list = e :: rest) :
    s.fetchWord w = s.leaveList.judgeRecord i e.slot { w0 := w0, w1 := w1, w2 := w, commit := e.commit } := by
  unfold State.fetchWord
  rw [hi, hf, hl]

/-- The third word of a fetch at the port (R6, R7). -/
theorem exec_fetchReadDone_last {s : State} {a : Nat} {i : Installed} {w0 w1 : Word} {e : AdmissionEntry}
    {rest : List AdmissionEntry} (hp : s.path.port = some (.fetchRead a false)) (hi : s.loader.installed = some i)
    (hf : s.admission.fetch = some [w0, w1]) (hl : s.admission.list = e :: rest) :
    exec .fetchReadDone s = .next (State.judgeRecord i e.slot
      { w0 := w0, w1 := w1, w2 := s.mem.read a, commit := e.commit }
      { s with
        path := { s.path with port := none },
        admission := { s.admission with list := rest, fetch := none } }).pump := by
  rw [exec_fetchReadDone hp]
  simp only [State.complete, Bool.false_eq_true, if_false]
  rw [State.fetchWord_last (i := i) _ (by exact hi) (by exact hf) (by exact hl)]
  simp only [State.leaveList, hl, List.tail_cons]

end Sys2Proof.Machine

open Sys2Proof Sys2Proof.Machine

/-- Settles O28: the tests by the fields they read, and the effect of the first that fails. -/
theorem checkCodeAtTheFetchEnd : Obligations.CheckCodeAtTheFetchEnd := by
  refine ⟨fun r => ⟨r.checkValue_eq, r.checkValue_le⟩, ?_, ?_⟩
  · rintro r tmin tmax kind division key payload stamp _ _ hc rfl rfl rfl rfl rfl _ rfl rfl
    rw [r.formError_checked tmin tmax hc, ← r.payloadFails_iff tmin tmax, ← FetchedRecord.stamp_eq, ← r.rangeFails_iff]
    exact ⟨fun h7 => if_pos h7, fun h7 hp => by rw [if_neg h7, if_pos hp],
      fun h7 hp hr => by rw [if_neg h7, if_neg hp, if_pos hr], fun h7 hp hr => by rw [if_neg h7, if_neg hp, if_neg hr]⟩
  · intro a i w0 w1 e rest s hw hp hi hf hl
    have check := FetchedRecord.formError_check (.mk w0 w1 (s.mem.read a) e.commit) i.tmin i.tmax
    refine ⟨check, fun h31 => check.1 ?_, fun reason hr => ?_⟩
    · exact Nat.ne_of_gt (Nat.lt_of_le_of_lt (FetchedRecord.checkValue_le _) (h31 ▸ (by decide : 30 < 31)))
    · refine pumped (exec_fetchReadDone_last hp hi hf hl) ?_ hw
      unfold State.judgeRecord
      simp only [hr]
      exact State.raise_installed (i := i) _ _ hi
end

section
/-! A write on a free port taken as an effect of its own, and the start of a load (R157, R158). -/

namespace Sys2Proof.Machine

/-- The effect `u` of a write on a free port, with what follows it. -/
theorem wrote {c : Instr} {a : Nat} {x : Word} {s u v : State} (ha : accessOf c = some (.write a x)) (hf : s.portFree)
    (h : s.processorWrite a x = u.pump) (hu : u = v) (hp : v.path.waiting = s.path.waiting) :
    ∃ t, exec c s = .next t ∧ sameButTraffic v t :=
  pumped ((exec_access ha).trans (congrArg _ h)) hu (hp.trans hf.2)

theorem State.demandRefresh_eq (s : State) : s.demandRefresh =
    { s with report := { s.report with refreshDue := s.report.refreshDue || s.loader.installed.isSome } } := by
  unfold State.demandRefresh ReportWriter.demandRefresh
  cases s.loader.installed <;> simp

theorem State.setConfig_eq (c : ConfigState) (s : State) : s.setConfig c =
    { s with
      loader := { s.loader with config := c },
      report := { s.report with
        refreshDue := s.report.refreshDue || (s.loader.config != c && s.loader.installed.isSome) } } := by
  unfold State.setConfig
  split
  · next h => subst h; simp
  · next h => rw [State.demandRefresh_eq, bne_iff_ne.2 h, Bool.true_and]

/-- With no access of the part in progress there is no read to discard (R8, R9). -/
theorem State.discardFetch_free {s : State} (hp : s.path.port = none) : s.discardFetch =
    { s with admission := { s.admission with
        request := s.admission.request.map (fun r => { r with discard := true }) } } := by
  simp only [State.discardFetch, hp]
  rw [← hp]

/-- The start of a load (R158). -/
theorem State.loadStart_eq (s : State) : s.loadStart =
    { s with
      path := { s.path with port := abandonForLoad s.discardFetch.path.port, writeBacks := [] },
      loader := { s.loader with
        config := .loading, load := some [], heldMasks := Vector.replicate 4 none,
        noted := Vector.replicate 12 none, pickupList := [], pickupGot := [] },
      admission :=
        { slots := [], list := [], fetch := none, nextOrder := 0,
          request := s.admission.request.map (fun r => { r with discard := true }) },
      release := { hold := [], starved := false },
      chest := { s.chest with fifo := [], sweep := none, union := Divisions.none },
      fuser := { s.fuser with window := none },
      matcher := { s.matcher with cues := [], capture := 0, miss := 0, timer := 0 },
      tracker := { s.tracker with waitStamp := none },
      run := { s.run with markLow := false, markHigh := false, markNominal := false },
      report := { s.report with refreshDue := s.report.refreshDue ||
        (s.loader.config != .loading && s.loader.installed.isSome) } } := by
  unfold State.loadStart
  rw [State.setConfig_eq]
  rfl

/-- With the port free the start of a load leaves the port as it is (R158). -/
theorem abandonForLoad_free {s : State} (hp : s.path.port = none) :
    abandonForLoad s.discardFetch.path.port = s.path.port := by
  rw [State.discardFetch_free hp, hp]
  rfl

/-- An anchor commit on a free port (R157). -/
theorem State.anchorCommit_free {s : State} (v : Word) (hf : s.portFree) :
    s.processorWrite 77 v = (s.store 77 v).anchorCommit.pump :=
  State.anchorWrite_free s 77 v hf (by decide)

end Sys2Proof.Machine

open Sys2Proof Sys2Proof.Machine

/-- Settles O16: a load begins, the commit is deferred with its report, or it is stored only. -/
theorem anchorCommitTaken : Obligations.AnchorCommitTaken := by
  intro v s hf
  refine ⟨fun hc => wrote rfl hf (State.anchorCommit_free v hf) ?_ rfl, fun hc ha hi => ?_,
    fun hc => wrote rfl hf (State.anchorCommit_free v hf) ?_ rfl⟩
  · have begins : (s.store 77 v).anchorCommit = (s.store 77 v).loadStart := by
      unfold State.anchorCommit
      rcases hc with hc | hc | ⟨hc, ha⟩
      · rw [show (s.store 77 v).loader.config = _ from hc]
      · rw [show (s.store 77 v).loader.config = _ from hc]
      · rw [show (s.store 77 v).loader.config = _ from hc]
        exact if_pos ha
    rw [begins, State.loadStart_eq, abandonForLoad_free (by exact hf.1)]
    rfl
  · obtain ⟨i, hi⟩ := Option.ne_none_iff_exists'.1 hi
    refine wrote rfl hf (State.anchorCommit_free v hf) ?_ rfl
    unfold State.anchorCommit
    rw [show (s.store 77 v).loader.config = _ from hc]
    refine (if_neg ha).trans ?_
    rw [State.setConfig_eq, State.raise_installed (i := i) _ _ (by exact hi)]
    simp [State.store, hc, hi, State.reported]
  · unfold State.anchorCommit
    rw [show (s.store 77 v).loader.config = _ from hc]
    rfl
end

section
/-! A change of tracker state at every block, and the teardown of a STOP (R115, R133, R139). -/

namespace Sys2Proof.Machine

theorem sameButTraffic.slot {u t : State} (h : sameButTraffic u t) {n : Nat} (hn : ¬ u.headsList n) :
    t.slot n = u.slot n := by
  obtain ⟨-, ⟨-, -, -, -, hs⟩, -⟩ := h
  exact hs n hn

theorem sameButTraffic.chest {u t : State} (h : sameButTraffic u t) : t.chest = u.chest := by
  obtain ⟨-, ⟨⟨_, _, _, rfl⟩, -⟩, -⟩ := h
  rfl

theorem State.windHold_installed {s : State} {i : Installed} (hi : s.loader.installed = some i) :
    s.windHold = i.windHold := by
  simp [State.windHold, hi]

/-- A change of state announced under an installed configuration (R115). -/
theorem State.announce_installed {s : State} {i : Installed} (new : TrackerState) (cause : StateCause)
    (hi : s.loader.installed = some i) : s.announce new cause =
    { s with
      tracker := s.tracker.enter new,
      matcher := s.matcher.announce s.tracker.state new,
      fuser := s.fuser.announce new,
      run := s.run.announce i.windHold new,
      loader := { s.loader with announced := new },
      report := { s.report with refreshDue := true },
      raised := s.raised ++ [s.reported .tracker (.state s.tracker.state new cause)] } := by
  simp only [State.announce]
  rw [State.raise_installed _ _ hi, State.demandRefresh_eq, State.windHold_installed (i := i) (by exact hi)]
  simp only [hi, Option.isSome_some, Bool.or_true]

/-- The teardown with no access of the part in progress (R18, R34, R51, R112, R133). -/
theorem State.teardown_free {s : State} (hp : s.path.port = none) : s.teardown =
    { s with
      tracker := { s.tracker with waitStamp := none },
      admission :=
        { slots := [], list := [], fetch := none, nextOrder := 0,
          request := s.admission.request.map (fun r => { r with discard := true }) },
      release := { hold := [], starved := false },
      matcher := { s.matcher with cues := [], capture := 0, miss := 0, timer := 0 },
      chest := s.chest.requestSweep .off Divisions.all } := by
  unfold State.teardown State.clearAdmission
  rw [State.discardFetch_free hp]
  simp only [State.requestSweep, State.clearHold, State.storeWaitStamp, Chest.silences, if_true, hp, abandonChestWrite]
  rw [← hp]
  rfl

/-- The wind request of a run controller that enters STOPPING (R139, R144 to R147). -/
theorem RunControl.announce_stopping (windHold : Nat) (r : RunControl) : r.announce windHold .stopping =
    { r with
      announced := .stopping, windReq := true, limitRunning := false, settle := 0, holdRunning := false,
      wind := if r.windReq = true ∧ r.wind ≠ .settling then r.wind else .unconfirmed } := by
  simp only [RunControl.announce, RunControl.raiseRequest, RunControl.endWinding]
  cases hr : r.windReq <;> cases hw : r.wind <;> simp

theorem Matcher.announce_stopping (old : TrackerState) (m : Matcher) :
    m.announce old .stopping = { m with announced := .stopping, expiryDue := false } := by
  simp [Matcher.announce]

/-- Entry into STOPPING with no access of the part in progress: STATE, and the teardown (R115, R133). -/
theorem State.changeState_stopping {s : State} {i : Installed} (cause : StateCause)
    (hi : s.loader.installed = some i) (hp : s.path.port = none) : s.changeState .stopping cause =
    { s with
      tracker := { s.tracker with
        state := .stopping, returnState := none, resume := false, awaitingClear := false, waitStamp := none },
      admission :=
        { slots := [], list := [], fetch := none, nextOrder := 0,
          request := s.admission.request.map (fun r => { r with discard := true }) },
      release := { hold := [], starved := false },
      matcher := { s.matcher with
        cues := [], capture := 0, miss := 0, timer := 0, announced := .stopping, expiryDue := false },
      fuser := { window := none, running := false },
      chest := s.chest.requestSweep .off Divisions.all,
      run := { s.run with
        announced := .stopping, windReq := true, limitRunning := false, settle := 0, holdRunning := false,
        wind := if s.run.windReq = true ∧ s.run.wind ≠ .settling then s.run.wind else .unconfirmed },
      loader := { s.loader with announced := .stopping },
      report := { s.report with refreshDue := true },
      raised := s.raised ++ [s.reported .tracker (.state s.tracker.state .stopping cause)] } := by
  show (s.announce .stopping cause).teardown = _
  rw [State.announce_installed _ _ hi, State.teardown_free (by exact hp), RunControl.announce_stopping,
    Matcher.announce_stopping]
  rfl

/-- A run controller in neither IDLE nor STOPPING accepts a STOP (R139). -/
theorem RunControl.stopRefusal_none {r : RunControl} (h1 : r.announced ≠ .idle) (h2 : r.announced ≠ .stopping) :
    r.stopRefusal = none := by
  unfold RunControl.stopRefusal
  split <;> simp_all

/-- An accepted STOP: COMMAND, then the entry into STOPPING (R139; log entry 14). -/
theorem State.takeStop_accepted {s : State} {i : Installed} (hi : s.loader.installed = some i)
    (ha : s.run.announced = s.tracker.state) (h1 : s.tracker.state ≠ .idle) (h2 : s.tracker.state ≠ .stopping) :
    s.takeStop =
    State.changeState .stopping .stop { s with raised := s.raised ++
      [s.reported .run (.command (.written 2) .accepted none s.tracker.state 0 0)] } := by
  unfold State.takeStop
  rw [RunControl.stopRefusal_none (ha ▸ h1) (ha ▸ h2), ← ha]
  exact congrArg (State.changeState .stopping .stop) (State.raise_installed _ _ hi)

/-- A STOP on a free port, with nothing left of the run controller's frame event (R136, R139). -/
theorem State.stop_free {s : State} {i : Installed} (hf : s.portFree) (hi : s.loader.installed = some i)
    (hd : s.run.stage = .done) : s.processorWrite 75 2 = (s.store 75 2).takeStop.pump := by
  rw [State.commandWrite_free s 2 i hf hi hd (by decide)]
  rfl

/-! ### The chest of an OFF sweep's start (R47, R49) -/

/-- An OFF sweep starts at the lowest key of division 0 (R48). -/
theorem Chest.sweepAtStart_off (c : Chest) : c.sweepAtStart .off Divisions.all =
    { kind := .off, set := Divisions.all, division := 0, key := 0, passed := false } := rfl

/-- Every holder and every pending-on flag is forgotten (R49). -/
theorem Chest.startOff_forgets (c : Chest) (e : Nat × SoundEntry) (he : e ∈ c.startOff.sounding) :
    e.2.holders = 0 ∧ e.2.pendingOn = false := by
  obtain ⟨v, -, hv⟩ := Table.mem_mapValues_value SoundEntry.forget c.sounding e he
  rw [hv]
  exact ⟨rfl, rfl⟩

/-- The words of the off-writes stay in their order (R47). -/
theorem offWrites_words (q : List FifoEntry) : (offWrites q).map (fun e => (e.address, e.stored, e.on)) =
    (q.filter (fun e => !e.on)).map (fun e => (e.address, e.stored, e.on)) := by
  simp only [offWrites, untagged, List.map_map]
  rfl

end Sys2Proof.Machine

open Sys2Proof Sys2Proof.Machine

/-- Settles O22: the accepted STOP enters STOPPING, whose teardown leaves no slot named and starts the OFF sweep. -/
theorem stopTearsDown : Obligations.StopTearsDown := by
  intro s hf hi hd ha h1 h2
  obtain ⟨i, hi⟩ := Option.ne_none_iff_exists'.1 hi
  have taken := State.takeStop_accepted (s := s.store 75 2) hi ha h1 h2
  rw [State.changeState_stopping (i := i) _ (by exact hi) (by exact hf.1), List.append_assoc] at taken
  obtain ⟨t, ht, same⟩ := wrote (c := .stop) rfl hf (State.stop_free hf hi hd) taken rfl
  have chest : t.chest = s.chest.startOff := same.chest
  refine ⟨t, ht, same, fun n => (same.slot ?_).trans rfl, ?_, ?_, ?_, ?_⟩
  · rintro ⟨e, rest, he, -⟩
    cases he
  · rw [chest]
    exact congrArg some (Chest.sweepAtStart_off _)
  · rw [chest]
    exact offWrites_words _
  · rw [chest]
    exact s.chest.startOff_forgets
  · rw [chest]
    rfl
end

section
/-! Writes into the score area by the state of the slot (R1 to R5, R8, R9, R15, R17). -/

namespace Sys2Proof.Machine

/-- A write into the score area on a free port is stored, and then taken by the slot's state (R1). -/
theorem scored {c : Instr} {a : Addr} {x : Word} {i : Installed} {n k : Nat} {s v : State}
    (ha : accessOf c = some (.write a.toNat x)) (hf : s.portFree) (hi : s.loader.installed = some i)
    (hr : regionOf (some i) a.toNat = .score) (hn : a.toNat = i.scoreBase + 4 * n + k) (hk : k < 4)
    (hu : (s.store a.toNat x).scoreWrite n k x = v) (hp : v.path.waiting = s.path.waiting) :
    ∃ t, exec c s = .next t ∧ sameButTraffic v t :=
  wrote ha hf (State.scoreWrite_free s x a i n k hf hi hr hn hk) hu hp

/-! ### What a write of the slot brings -/

/-- The configuration governs in CONFIGURED and in DEFERRED (R157). -/
theorem State.governed_iff (s : State) :
    s.governed = true ↔ s.loader.config = .configured ∨ s.loader.config = .deferred := by
  unfold State.governed
  cases s.loader.config <;> simp

/-- While no configuration governs a write of the score area is stored only (R17). -/
theorem State.scoreWrite_ungoverned {s : State} (n k : Nat) (v : Word) (h : s.governed = false) :
    s.scoreWrite n k v = s := by
  simp [State.scoreWrite, h]

theorem State.scoreWrite_loading {s : State} (n k : Nat) (v : Word) (h : s.loader.config = .loading) :
    s.scoreWrite n k v = s :=
  State.scoreWrite_ungoverned n k v (by simp [State.governed, h])

/-- A write of w0, w1 or w2 is an edit (R4). -/
theorem State.scoreWrite_edit {s : State} (n : Nat) {k : Nat} (v : Word) (hg : s.governed = true) (hk : k < 3) :
    s.scoreWrite n k v = s.editSlot n := by
  simp [State.scoreWrite, hg, hk]

theorem State.scoreWrite_empty {s : State} (n : Nat) {v : Word} (hg : s.governed = true) (hv : commitKind v = .empty) :
    s.scoreWrite n 3 v = s.emptySlot n := by
  simp [State.scoreWrite, hg, hv]

theorem State.scoreWrite_commit {s : State} (n : Nat) {v : Word} (hg : s.governed = true)
    (hv : commitKind v ≠ .empty) : s.scoreWrite n 3 v = s.commitSlot n v := by
  simp [State.scoreWrite, hg, hv]

/-! ### A FREE slot -/

theorem State.editSlot_free {s : State} {n : Nat} (h : s.slot n = .free) : s.editSlot n = s := by
  simp [State.editSlot, h]

theorem State.emptySlot_free {s : State} {n : Nat} (h : s.slot n = .free) : s.emptySlot n = s := by
  simp [State.emptySlot, h]

/-- An edit of a FREE slot is stored only (R15). -/
theorem State.scoreEdit_free {s : State} {n k : Nat} (v : Word) (h : s.slot n = .free) (hk : k < 3) :
    s.scoreWrite n k v = s := by
  cases hg : s.governed with
  | false => exact State.scoreWrite_ungoverned _ _ _ hg
  | true => rw [State.scoreWrite_edit _ _ hg hk, State.editSlot_free h]

/-- An EMPTY commit of a FREE slot is stored only (R5). -/
theorem State.emptyCommit_free {s : State} {n : Nat} {v : Word} (h : s.slot n = .free) (hv : commitKind v = .empty) :
    s.scoreWrite n 3 v = s := by
  cases hg : s.governed with
  | false => exact State.scoreWrite_ungoverned _ _ _ hg
  | true => rw [State.scoreWrite_empty _ hg hv, State.emptySlot_free h]

/-! ### A PENDING slot -/

theorem State.editSlot_listed {s : State} {n : Nat} (h : s.slot n = .pending) : s.editSlot n = s := by
  simp [State.editSlot, h]

/-- A PENDING slot leaves the list and is FREE (R5). -/
theorem State.emptySlot_listed {s : State} {n : Nat} (h : s.slot n = .pending) : s.emptySlot n =
    { s with admission := { s.admission with
        list := s.admission.list.filter (fun e => e.slot != n),
        slots := Table.set .free s.admission.slots n .free } } := by
  unfold State.emptySlot
  rw [h]
  rfl

/-! ### A FETCHING slot -/

/-- The fetch restarts (R8). -/
theorem State.restartFetch_free {s : State} (hp : s.path.port = none) : s.restartFetch =
    { s with admission := { s.admission with
        fetch := some [], request := s.admission.request.map (fun r => { r with discard := true }) } } := by
  unfold State.restartFetch
  rw [State.discardFetch_free hp]

theorem State.editSlot_fetching {s : State} {n : Nat} (h : s.slot n = .fetching) :
    s.editSlot n = s.restartFetch := by
  simp [State.editSlot, h]

/-- A FETCHING slot leaves the list, and its fetch is abandoned (R5, R9). -/
theorem State.emptySlot_fetching {s : State} {n : Nat} (hp : s.path.port = none) (h : s.slot n = .fetching) :
    s.emptySlot n =
    { s with admission := { s.admission with
        list := s.admission.list.filter (fun e => e.slot != n),
        slots := Table.set .free s.admission.slots n .free,
        fetch := none,
        request := s.admission.request.map (fun r => { r with discard := true }) } } := by
  unfold State.emptySlot
  rw [h, State.discardFetch_free hp]
  rfl

end Sys2Proof.Machine

open Sys2Proof Sys2Proof.Machine

/-- Settles O25: an EMPTY commit and an edit, by the state of the slot that is not held. -/
theorem editOrEmptyCommitOfUnheldSlot : Obligations.EditOrEmptyCommitOfUnheldSlot := by
  intro a b v w i n k s hf hi hra ha hv hrb hb hk
  have empties {u : State} := scored (c := .emptyCommit a v) (v := u) rfl hf hi hra ha (by decide)
  have edits {u : State} := scored (c := .scoreEdit b w) (v := u) rfl hf hi hrb hb (by omega)
  refine ⟨?_, fun hg hs => ?_, fun hg hs => ?_⟩
  · rintro (hc | hs)
    · exact ⟨empties (State.scoreWrite_loading _ _ _ hc) rfl, edits (State.scoreWrite_loading _ _ _ hc) rfl⟩
    · exact ⟨empties (State.emptyCommit_free hs hv) rfl, edits (State.scoreEdit_free _ hs hk) rfl⟩
  · have hg : ∀ m x, (s.store m x).governed = true := fun _ _ => s.governed_iff.2 hg
    exact ⟨empties ((State.scoreWrite_empty _ (hg _ _) hv).trans (State.emptySlot_listed (by exact hs))) rfl,
      edits ((State.scoreWrite_edit _ _ (hg _ _) hk).trans (State.editSlot_listed (by exact hs))) rfl⟩
  · have hg : ∀ m x, (s.store m x).governed = true := fun _ _ => s.governed_iff.2 hg
    refine ⟨empties ((State.scoreWrite_empty _ (hg _ _) hv).trans
      (State.emptySlot_fetching (by exact hf.1) (by exact hs))) rfl, edits ?_ rfl⟩
    rw [State.scoreWrite_edit _ _ (hg _ _) hk, State.editSlot_fetching (by exact hs)]
    exact State.restartFetch_free hf.1
end

section
/-! The withdrawal of a held slot's entry (R15, R23, R32, R99, R100, R110). -/

namespace Sys2Proof.Machine

theorem State.editSlot_heldNote {s : State} {n : Nat} (h : s.slot n = .heldNote) : s.editSlot n = s.withdrawNote n := by
  simp [State.editSlot, h]

theorem State.editSlot_heldCue {s : State} {n : Nat} (h : s.slot n = .heldCue) : s.editSlot n = s.withdrawCue n := by
  simp [State.editSlot, h]

theorem State.emptySlot_heldNote {s : State} {n : Nat} (h : s.slot n = .heldNote) :
    s.emptySlot n = s.withdrawNote n := by
  simp [State.emptySlot, h]

theorem State.emptySlot_heldCue {s : State} {n : Nat} (h : s.slot n = .heldCue) : s.emptySlot n = s.withdrawCue n := by
  simp [State.emptySlot, h]

/-- Starvation at a hold queue that an event has left as it is now, in any state of the tracker (R32). -/
theorem State.noteEmptied_installed {s : State} {i : Installed} (c : StarvedCause) (n : Option Nat)
    (hi : s.loader.installed = some i) : s.noteEmptied c n =
    { s with
      release := { s.release with
        starved := s.release.starved || (s.release.hold.isEmpty && s.tracker.state.running) },
      raised := s.raised ++
        (if s.release.hold.isEmpty && s.tracker.state.running && !s.release.starved then
          [s.reported .release (.starved c n)] else []) } := by
  unfold State.noteEmptied
  split
  · next h =>
    rw [State.raise_installed (i := i) _ _ (by exact hi)]
    simp only [Bool.and_eq_true, Bool.not_eq_true'] at h
    simp [h, State.reported]
  · next h =>
    have : (s.release.starved || (s.release.hold.isEmpty && s.tracker.state.running)) = s.release.starved := by
      cases hs : s.release.starved <;> simp_all
    rw [this, List.append_nil]

/-- A note is withdrawn: WITHDRAWN, and starvation if it leaves the queue empty in a running state (R15, R32). -/
theorem State.withdrawNote_held {s : State} {i : Installed} {n : Nat} {e : HoldEntry} {left : List HoldEntry}
    (hi : s.loader.installed = some i) (he : s.release.hold.find? (fun x => x.slot == n) = some e)
    (hl : left = s.release.hold.filter (fun x => x.slot != n)) : s.withdrawNote n =
    { s with
      admission := { s.admission with slots := Table.set .free s.admission.slots n .free },
      release :=
        { hold := left, starved := s.release.starved || (left.isEmpty && s.tracker.state.running) },
      raised := s.raised ++ s.reported .admission (.withdrawn n e.kind.toScore) ::
        (if left.isEmpty && s.tracker.state.running && !s.release.starved then
          [s.reported .release (.starved .withdrawn (some n))] else []) } := by
  subst hl
  unfold State.withdrawNote
  rw [he]
  simp only [State.setSlot, holdRemove]
  rw [State.raise_installed (i := i) _ _ (by exact hi), State.noteEmptied_installed (i := i) _ _ (by exact hi)]
  simp only [List.append_assoc, List.singleton_append, State.reported]

/-- A cue is withdrawn: WITHDRAWN, and the wait stamp that remains is delivered (R15, R99, R100). -/
theorem State.withdrawCue_held {s : State} {i : Installed} {n : Nat} {e : CueEntry} {left : List CueEntry}
    (hi : s.loader.installed = some i) (he : s.matcher.cues.find? (fun x => x.slot == n) = some e)
    (hl : left = s.matcher.cues.filter (fun x => x.slot != n)) : s.withdrawCue n =
    State.deliver none { s with
      admission := { s.admission with slots := Table.set .free s.admission.slots n .free },
      matcher := { s.matcher with cues := left },
      raised := s.raised ++ [s.reported .admission (.withdrawn n .cue)] } := by
  subst hl
  unfold State.withdrawCue
  rw [he]
  simp only [State.setSlot, Matcher.withdraw, cueRemove]
  rw [State.raise_installed (i := i) _ _ (by exact hi)]
  rfl

/-- A delivery that brings no change of state: the wait stamp is the one the tracker holds, or the tracker only stores
it (R100, R121). -/
theorem State.deliver_quiet {s : State}
    (h : s.matcher.waitStamp = s.tracker.waitStamp ∨ s.tracker.state ≠ .waiting ∧ s.matcher.announced ≠ .waiting
      ∧ (s.tracker.state.advancing = true →
        ∀ w, s.matcher.waitStamp = some w → s.tracker.position ≠ w * 65536)) :
    s.deliver none = { s with tracker := { s.tracker with waitStamp := s.matcher.waitStamp } } := by
  rcases h with h | ⟨h1, h2, h3⟩
  · rw [State.deliver_unchanged h, h]
  · exact State.deliver_stored h1 h2 h3

/-- A withdrawn cue that leaves the tracker in its state (R99, R100). -/
theorem State.withdrawCue_quiet {s : State} {i : Installed} {n : Nat} {e : CueEntry} {left : List CueEntry}
    (hi : s.loader.installed = some i) (he : s.matcher.cues.find? (fun x => x.slot == n) = some e)
    (hl : left = s.matcher.cues.filter (fun x => x.slot != n))
    (hq : leastWait left = s.tracker.waitStamp ∨ s.tracker.state ≠ .waiting ∧ s.matcher.announced ≠ .waiting
      ∧ (s.tracker.state.advancing = true → ∀ w, leastWait left = some w → s.tracker.position ≠ w * 65536)) :
    s.withdrawCue n =
    { s with
      admission := { s.admission with slots := Table.set .free s.admission.slots n .free },
      matcher := { s.matcher with cues := left },
      tracker := { s.tracker with waitStamp := leastWait left },
      raised := s.raised ++ [s.reported .admission (.withdrawn n .cue)] } := by
  rw [State.withdrawCue_held hi he hl, State.deliver_quiet (by exact hq)]
  rfl

/-- The withdrawn cue on which the tracker stands in WAITING ends the wait (R110, R127). -/
theorem State.withdrawCue_releases {s : State} {i : Installed} {n : Nat} {e : CueEntry} {left : List CueEntry}
    {back : TrackerState} (hi : s.loader.installed = some i)
    (he : s.matcher.cues.find? (fun x => x.slot == n) = some e)
    (hl : left = s.matcher.cues.filter (fun x => x.slot != n)) (h1 : s.tracker.state = .waiting)
    (h2 : s.matcher.announced = .waiting) (h3 : leastWait left ≠ s.tracker.waitStamp)
    (h4 : ∀ w, leastWait left = some w → s.tracker.position < w * 65536) (h5 : s.tracker.returnState = some back)
    (h6 : back = .leading ∨ back = .following ∨ back = .coasting) : s.withdrawCue n =
    { s with
      admission := { s.admission with slots := Table.set .free s.admission.slots n .free },
      matcher := { s.matcher with cues := left, timerStopped := true, expiryDue := false, announced := back },
      tracker := { s.tracker with
        state := back, returnState := none, waitStamp := leastWait left,
        resume := s.tracker.resume && back != .leading,
        awaitingClear := s.tracker.awaitingClear && back != .leading },
      fuser := { s.fuser with running := true },
      run := { s.run with announced := back },
      loader := { s.loader with announced := back },
      report := { s.report with refreshDue := true },
      raised := s.raised ++
        [s.reported .admission (.withdrawn n .cue),
         s.reported .tracker (.state .waiting back .waitReleased)] } := by
  rw [State.withdrawCue_held hi he hl, State.deliver_released (i := i) (back := back) (by exact hi) (by exact h1)
    (by exact h2) (by exact h3) (by exact h4) (by exact h5) h6, List.append_assoc]
  rfl

/-- A held slot that has become FREE is read back as FREE after what follows the event: the list holds no entry of
it (R2). -/
theorem sameButTraffic.freed {s u t : State} {n : Nat} (same : sameButTraffic u t) (hs : s.slot n = .heldCue)
    (hc : s.tablesCanonical = true) (hn : s.slotsNamed) (hl : u.admission.list = s.admission.list)
    (hu : u.admission.slots = Table.set .free s.admission.slots n .free) : t.slot n = .free := by
  have hw : Table.wf SlotState.free s.admission.slots = true := by
    simp only [State.tablesCanonical, Bool.and_eq_true] at hc
    exact hc.1.2
  rw [same.slot ?_, State.slot, hu, Table.get_set_same _ _ _ hw]
  rintro ⟨e, rest, he, rfl⟩
  have listed := (hn.1 e.slot).1.2 ⟨e, by rw [← hl, he]; exact List.mem_cons_self, rfl⟩
  rw [hs] at listed
  simp at listed

end Sys2Proof.Machine

open Sys2Proof Sys2Proof.Machine

/-- Settles O26: the note leaves the queue, the cue leaves the list quietly, or with it ends the wait. -/
theorem editOrEmptyCommitWithdraws : Obligations.EditOrEmptyCommitWithdraws := by
  intro a v i n k c s hf hi hr ha hc hg
  have hg : (s.store a.toNat v).governed = true := s.governed_iff.2 hg
  have writes {u : State} (he : (s.store a.toNat v).editSlot n = u) (hm : (s.store a.toNat v).emptySlot n = u)
      (hp : u.path.waiting = s.path.waiting) : ∃ t, exec c s = .next t ∧ sameButTraffic u t := by
    rcases hc with ⟨rfl, rfl, hv⟩ | ⟨rfl, hk⟩
    · exact scored rfl hf hi hr ha (by decide) ((State.scoreWrite_empty _ hg hv).trans hm) hp
    · exact scored rfl hf hi hr ha (by omega) ((State.scoreWrite_edit _ _ hg hk).trans he) hp
  refine ⟨fun e hs he => ?_, fun e hs he hq => ?_, fun e left back hs he hl h1 h2 h3 h4 h5 h6 => ?_⟩
  · have held := State.withdrawNote_held (s := s.store a.toNat v) hi he rfl
    exact writes ((State.editSlot_heldNote (by exact hs)).trans held)
      ((State.emptySlot_heldNote (by exact hs)).trans held) rfl
  · have held := State.withdrawCue_quiet (s := s.store a.toNat v) hi he rfl hq
    exact writes ((State.editSlot_heldCue (by exact hs)).trans held)
      ((State.emptySlot_heldCue (by exact hs)).trans held) rfl
  · have held := State.withdrawCue_releases (s := s.store a.toNat v) hi he hl h1 h2 h3 h4 h5 h6
    obtain ⟨t, ht, same⟩ := writes ((State.editSlot_heldCue (by exact hs)).trans held)
      ((State.emptySlot_heldCue (by exact hs)).trans held) rfl
    exact ⟨t, ht, fun hc hn => same.freed hs hc hn rfl rfl, same⟩
end

section
/-! Commits of a score slot (R3, R4, R8, R15, R17). -/

namespace Sys2Proof.Machine

/-! ### The slot map behind an event -/

theorem State.grantPart_slots (s : State) : s.grantPart.admission.slots = s.admission.slots := by
  have yields : s.countYield.admission = s.admission := by
    unfold State.countYield; split <;> rfl
  unfold State.grantPart
  split
  · rfl
  · rfl
  · next a _ _ => rw [← yields]; cases a <;> rfl

theorem State.arbitrate_slots {s : State} (hw : s.path.waiting = none) :
    s.arbitrate.admission.slots = s.admission.slots := by
  unfold State.arbitrate
  split
  · rfl
  · rw [hw]; exact s.grantPart_slots

theorem State.postFetch_slots (s : State) : s.postFetch.admission.slots = s.admission.slots :=
  congrArg Ledger.slots s.postFetch_ledger

/-- With no processor access waiting only the begin of a fetch changes the slot map behind an event (R6). -/
theorem State.pump_slots {s : State} (hw : s.path.waiting = none) :
    s.pump.admission.slots = s.beginFetch.admission.slots :=
  (State.arbitrate_slots (by simpa using hw)).trans (State.postFetch_slots _)

/-- A slot that an event leaves PENDING is PENDING behind it, or its fetch begins (R3, R6). -/
theorem State.pump_pending_slot {s : State} (hw : s.path.waiting = none) {n : Nat} (h : s.slot n = .pending) :
    s.pump.slot n = .pending ∨ s.pump.slot n = .fetching := by
  have hp : s.pump.slot n = s.beginFetch.slot n := by
    rw [State.slot, State.pump_slots hw, State.slot]
  rw [hp]
  unfold State.beginFetch
  split
  · exact .inl h
  · next e _ _ =>
    split
    · by_cases he : n = e.slot
      · subst he; exact .inr (Table.get_set_value _ _ (by decide))
      · exact .inl ((Table.get_set_other _ _ he).trans h)
    · exact .inl h

/-! ### The commit by the slot's state -/

/-- A commit is listed, or lost to a full list with ADMIT_OVERRUN (R3). -/
theorem State.listSlot_installed {s : State} {i : Installed} (n : Nat) (v : Word)
    (hi : s.loader.installed = some i) : s.listSlot n v =
    { s with
      admission :=
        if s.admission.list.length < 32 then
          { s.admission with
            list := s.admission.list ++ [{ slot := n, commit := v }],
            slots := Table.set .free s.admission.slots n .pending }
        else s.admission,
      raised := s.raised ++
        if s.admission.list.length < 32 then [] else [s.reported .admission (.admitOverrun n)] } := by
  unfold State.listSlot
  by_cases h : s.admission.list.length < 32
  · simp only [if_pos h, List.append_nil]
    exact if_neg (Nat.not_le.2 h)
  · simp only [if_neg h]
    exact (if_pos (Nat.not_lt.1 h)).trans (State.raise_installed _ _ hi)

theorem State.commitSlot_free {s : State} {n : Nat} (v : Word) (h : s.slot n = .free) :
    s.commitSlot n v = s.listSlot n v := by
  simp [State.commitSlot, h]

theorem State.commitSlot_heldNote {s : State} {n : Nat} (v : Word) (h : s.slot n = .heldNote) :
    s.commitSlot n v = (s.withdrawNote n).listSlot n v := by
  simp [State.commitSlot, h]

theorem State.commitSlot_heldCue {s : State} {n : Nat} (v : Word) (h : s.slot n = .heldCue) :
    s.commitSlot n v = (s.withdrawCue n).listSlot n v := by
  simp [State.commitSlot, h]

/-- The entry of a listed slot takes the new commit word in its place (R4). -/
theorem State.commitSlot_listed {s : State} {n : Nat} (v : Word) (h : s.slot n = .pending) : s.commitSlot n v =
    { s with admission := { s.admission with
        list := s.admission.list.map (fun e => if e.slot = n then { e with commit := v } else e) } } := by
  unfold State.commitSlot
  rw [h]
  rfl

/-- So too for the slot that is fetched, and its fetch restarts (R8). -/
theorem State.commitSlot_fetching {s : State} {n : Nat} (v : Word) (hp : s.path.port = none)
    (h : s.slot n = .fetching) : s.commitSlot n v =
    { s with admission := { s.admission with
        list := s.admission.list.map (fun e => if e.slot = n then { e with commit := v } else e),
        fetch := some [],
        request := s.admission.request.map (fun r => { r with discard := true }) } } := by
  unfold State.commitSlot
  rw [h]
  exact State.restartFetch_free (s := s.recommit n v) hp

end Sys2Proof.Machine

open Sys2Proof Sys2Proof.Machine

/-- Settles O24: the commit by the state of the slot; a held slot's entry is withdrawn as in O26, then the slot is
listed as from FREE. -/
theorem scoreCommitTaken : Obligations.ScoreCommitTaken := by
  intro a v i n s hf hi hr ha hv
  have writes {u : State} := scored (c := .scoreCommit a v) (v := u) rfl hf hi hr ha (by decide)
  refine ⟨fun hc => writes (State.scoreWrite_loading _ _ _ hc) rfl, fun hg => ?_⟩
  have hg : (s.store a.toNat v).governed = true := s.governed_iff.2 hg
  have commits {u : State} (hu : (s.store a.toNat v).commitSlot n v = u) (hp : u.path.waiting = s.path.waiting) :
      ∃ t, exec (.scoreCommit a v) s = .next t ∧ sameButTraffic u t :=
    writes ((State.scoreWrite_commit n hg hv).trans hu) hp
  have lists := State.listSlot_installed (s := s.store a.toNat v) n v hi
  refine ⟨fun hs hl => ?_, fun hs hl => ?_, fun hs => ?_, fun hs => ?_, fun e left hs he hleft => ?_,
    fun e left hs he hleft hq => ?_, fun e left back hs he hleft h1 h2 h3 h4 h5 h6 => ?_⟩
  · rw [if_pos (by exact hl), if_pos (by exact hl), List.append_nil] at lists
    obtain ⟨t, ht, same⟩ := commits ((State.commitSlot_free v (by exact hs)).trans lists) rfl
    refine ⟨t, ht, ?_, ?_, same⟩
    · obtain ⟨-, ⟨-, hlist, -⟩, -⟩ := same
      exact hlist
    · rw [same.1]
      exact State.pump_pending_slot (by exact hf.2) (Table.get_set_value s.admission.slots n (by decide))
  · rw [if_neg (by exact Nat.not_lt.2 hl), if_neg (by exact Nat.not_lt.2 hl)] at lists
    exact commits ((State.commitSlot_free v (by exact hs)).trans lists) rfl
  · exact commits (State.commitSlot_listed v (by exact hs)) rfl
  · exact commits (State.commitSlot_fetching v (by exact hf.1) (by exact hs)) rfl
  · refine commits ?_ rfl
    rw [State.commitSlot_heldNote v (by exact hs),
      State.withdrawNote_held (by exact hi) (by exact he) (by exact hleft),
      State.listSlot_installed (i := i) _ _ (by exact hi), List.append_assoc, List.cons_append]
    rfl
  · refine commits ?_ rfl
    rw [State.commitSlot_heldCue v (by exact hs),
      State.withdrawCue_quiet (by exact hi) (by exact he) (by exact hleft) (by exact hq),
      State.listSlot_installed (i := i) _ _ (by exact hi), List.append_assoc, List.singleton_append]
    rfl
  · refine commits ?_ rfl
    rw [State.commitSlot_heldCue v (by exact hs),
      State.withdrawCue_releases (by exact hi) (by exact he) (by exact hleft) (by exact h1)
        (by exact h2) (by exact h3) (by exact h4) (by exact h5) h6,
      State.listSlot_installed (i := i) _ _ (by exact hi)]
    rfl
end

section
/-! The placing of an admissible record, and the records that come too late (R7, R13, R14, R22, R97, R98). -/

namespace Sys2Proof.Machine

/-! ### Late records (R14) -/

/-- The entry's stamp plus a tolerance lies below the position (R14). -/
theorem Tracker.within_eq_false (t : Tracker) (stamp tolerance : Nat) :
    t.within stamp tolerance = false ↔ (stamp + tolerance) * 65536 < t.position := by
  rw [Tracker.within, decide_eq_false_iff_not, Nat.not_le]
  rfl

theorem State.tooLate_noteOn {i : Installed} {r : FetchedRecord} (s : State) (h : commitKind r.commit = .noteOn) :
    s.tooLate i r = true ↔
      s.tracker.state.running = true ∧ (r.stamp + i.lateTolerance) * 65536 < s.tracker.position := by
  rw [← Tracker.within_eq_false]
  simp [State.tooLate, h]

/-- The WAIT flag of a CUE payload (R176). -/
theorem cueWait_eq (w : Word) : cueWait w = decide (w.toNat / 256 % 2 = 1) := by
  simp [cueWait, bit, field]
  rfl

theorem State.tooLate_cue {i : Installed} {r : FetchedRecord} (s : State) (h : commitKind r.commit = .cue) :
    s.tooLate i r = true ↔ s.tracker.state.running = true
      ∧ (r.stamp + if r.w2.toNat / 256 % 2 = 1 then 0 else r.w2.toNat % 256) * 65536 < s.tracker.position := by
  rw [← Tracker.within_eq_false]
  simp only [State.tooLate, h, cueWait_eq, cueWidth_eq, Bool.and_eq_true, decide_eq_true_eq]
  split <;> simp

theorem State.tooLate_other {i : Installed} {r : FetchedRecord} (s : State) (h1 : commitKind r.commit ≠ .noteOn)
    (h2 : commitKind r.commit ≠ .cue) : s.tooLate i r = false := by
  unfold State.tooLate
  cases h : commitKind r.commit <;> simp_all

/-! ### The judgement of an admissible record -/

/-- An admissible record that is late is discarded (R14). -/
theorem State.judgeRecord_late {s : State} {i : Installed} {r : FetchedRecord} (n : Nat)
    (hi : s.loader.installed = some i) (hf : r.formError i.tmin i.tmax = none) (hl : s.tooLate i r = true) :
    s.judgeRecord i n r =
    { s with
      admission := { s.admission with slots := Table.set .free s.admission.slots n .free },
      raised := s.raised ++ [s.reported .admission (.lateDiscard n (commitKind r.commit))] } := by
  unfold State.judgeRecord
  simp only [hf, hl, if_true]
  exact State.raise_installed (i := i) _ _ hi

theorem State.judgeRecord_placed {s : State} {i : Installed} {r : FetchedRecord} (n : Nat)
    (hf : r.formError i.tmin i.tmax = none) (hl : s.tooLate i r = false) :
    s.judgeRecord i n r = s.placeRecord n r := by
  unfold State.judgeRecord
  simp only [hf, hl, Bool.false_eq_true, if_false]

/-! ### Records for the hold queue (R13, R22) -/

theorem State.judgeRecord_hold {s : State} {i : Installed} {r : FetchedRecord} {k : HoldKind} (n : Nat)
    (hf : r.formError i.tmin i.tmax = none) (hl : s.tooLate i r = false)
    (hk : (commitKind r.commit).toHold = some k) : s.judgeRecord i n r =
    State.offerHold (r.holdEntry n s.admission.nextOrder k)
      { s with admission := { s.admission with nextOrder := s.admission.nextOrder + 1 } } := by
  rw [State.judgeRecord_placed n hf hl]
  unfold State.placeRecord
  simp only [hk]

theorem State.offerHold_taken {s : State} {e : HoldEntry} (h : s.release.hold.length < 384) : s.offerHold e =
    { s with
      admission := { s.admission with slots := Table.set .free s.admission.slots e.slot .heldNote },
      release := { hold := holdInsert e s.release.hold, starved := false } } :=
  if_neg (Nat.not_le.2 h)

theorem State.offerHold_full {s : State} {i : Installed} {e : HoldEntry} (hi : s.loader.installed = some i)
    (h : 384 ≤ s.release.hold.length) : s.offerHold e =
    { s with
      admission := { s.admission with slots := Table.set .free s.admission.slots e.slot .free },
      raised := s.raised ++ [s.reported .admission (.queueFull e.slot)] } :=
  (if_pos h).trans (State.raise_installed (i := i) _ _ hi)

/-! ### Records for the cue list (R13, R97, R98, R100) -/

theorem State.judgeRecord_cue {s : State} {i : Installed} {r : FetchedRecord} (n : Nat)
    (hf : r.formError i.tmin i.tmax = none) (hl : s.tooLate i r = false) (hk : commitKind r.commit = .cue) :
    s.judgeRecord i n r = State.offerCue (r.cueEntry n s.admission.nextOrder)
      { s with admission := { s.admission with nextOrder := s.admission.nextOrder + 1 } } := by
  rw [State.judgeRecord_placed n hf hl]
  unfold State.placeRecord
  simp only [hk]
  rfl

/-- A cue that the list takes: the wait stamp it leaves is delivered (R98, R100). -/
theorem State.offerCue_taken {s : State} {e : CueEntry} (h : s.matcher.cues.length < 64) : s.offerCue e =
    State.deliver none { s with
      admission := { s.admission with slots := Table.set .free s.admission.slots e.slot .heldCue },
      release := { s.release with starved := false },
      matcher := { s.matcher with cues := cueInsert e s.matcher.cues } } := by
  have taken : s.matcher.offer e = some { s.matcher with cues := cueInsert e s.matcher.cues } :=
    if_neg (Nat.not_le.2 h)
  unfold State.offerCue
  rw [taken]
  rfl

theorem State.offerCue_full {s : State} {i : Installed} {e : CueEntry} (hi : s.loader.installed = some i)
    (h : 64 ≤ s.matcher.cues.length) : s.offerCue e =
    { s with
      admission := { s.admission with slots := Table.set .free s.admission.slots e.slot .free },
      raised := s.raised ++ [s.reported .admission (.cueFull e.slot)] } := by
  have full : s.matcher.offer e = none := if_pos h
  unfold State.offerCue
  rw [full]
  exact State.raise_installed (i := i) _ _ hi

end Sys2Proof.Machine

open Sys2Proof Sys2Proof.Machine

/-- Settles O29: by the record's kind and the room of its collection, and which records are late. -/
theorem admissibleRecordPlaced : Obligations.AdmissibleRecordPlaced := by
  intro a i w0 w1 e rest r s hw hp hi hf hl hr hform
  subst hr
  have judged {u : State} := pumped (v := u) (exec_fetchReadDone_last hp hi hf hl)
  refine ⟨fun k hlate hk hroom => judged ?_ hw, fun k hlate hk hroom => judged ?_ hw,
    fun cues hlate hk hroom hc hq => judged ?_ hw, fun cues hlate hk hroom hc h1 h2 h3 h4 h5 => judged ?_ hw,
    fun hlate hk hroom => judged ?_ hw, fun hlate => judged ?_ hw, fun hk => ?_, fun hk => ?_, fun h1 h2 => ?_⟩
  · rw [State.judgeRecord_hold _ hform (by exact hlate) hk, State.offerHold_taken (by exact hroom)]
    rfl
  · rw [State.judgeRecord_hold _ hform (by exact hlate) hk, State.offerHold_full (by exact hi) (by exact hroom)]
    rfl
  · subst hc
    rw [State.judgeRecord_cue _ hform (by exact hlate) hk, State.offerCue_taken (by exact hroom),
      State.deliver_quiet (by exact hq)]
    rfl
  · subst hc
    rw [State.judgeRecord_cue _ hform (by exact hlate) hk, State.offerCue_taken (by exact hroom),
      State.deliver_reached (by exact hi) (by exact h4) (by exact h5) (by exact h1) (by exact h2) (by exact h3)]
    rfl
  · rw [State.judgeRecord_cue _ hform (by exact hlate) hk, State.offerCue_full (by exact hi) (by exact hroom)]
    rfl
  · exact State.judgeRecord_late _ (by exact hi) hform (by exact hlate)
  · exact State.tooLate_noteOn s hk
  · exact State.tooLate_cue s hk
  · exact State.tooLate_other s h1 h2
end

section
/-! The sweeps of the chest: a REVOICE request by the running sweep, and the end of a sweep (R48, R51, R52). -/

namespace Sys2Proof.Machine

/-! ### A REVOICE request (table of R52) -/

theorem Chest.requestRevoice_under_off {c : Chest} {w : Sweep} (set : Divisions) (hs : c.sweep = some w)
    (hk : w.kind = .off) : c.requestSweep .revoice set = c := by
  simp [Chest.requestSweep, hs, hk]

theorem Chest.requestRevoice_under_mute {c : Chest} {w : Sweep} (set : Divisions) (hs : c.sweep = some w)
    (hk : w.kind = .mute) : c.requestSweep .revoice set = { c with union := c.union.join set } := by
  simp [Chest.requestSweep, hs, hk]

/-- With none running, or over a running REVOICE, the REVOICE of the joined set starts. -/
theorem Chest.requestRevoice_starts {c : Chest} {set all : Divisions}
    (h : c.sweep = none ∧ all = set ∨ ∃ w, c.sweep = some w ∧ w.kind = .revoice ∧ all = w.set.join set) :
    c.requestSweep .revoice set = c.startRevoice all := by
  rcases h with ⟨hs, rfl⟩ | ⟨w, hs, hk, rfl⟩
  · simp [Chest.requestSweep, hs]
  · simp [Chest.requestSweep, hs, hk]

theorem Chest.afterRevoice_requestSweep (c : Chest) (set : Divisions) :
    c.afterRevoice set (c.requestSweep .revoice set) := by
  refine ⟨fun w hs hk => Chest.requestRevoice_under_off set hs hk,
    fun w hs hk => Chest.requestRevoice_under_mute set hs hk, fun all h => ?_⟩
  rw [Chest.requestRevoice_starts h]
  exact ⟨rfl, fun d hd hl => Chest.startRevoice_first hd hl, Chest.startRevoice_passed⟩

/-! ### The end of a sweep -/

theorem Chest.endedSweep_ended {c : Chest} {w : Sweep} (hs : c.sweep = some w) (hp : w.passed = true)
    (hq : ∀ e ∈ c.fifo, e.sweep = false) : c.endedSweep = some w := by
  have : c.fifo.any (fun e => e.sweep) = false := by simpa using hq
  simp [Chest.endedSweep, hs, hp, this]

/-- A sweep that has not passed its last key, or has a write still queued, has not ended (R48). -/
theorem Chest.endedSweep_running {c : Chest} {w : Sweep} (hs : c.sweep = some w)
    (h : w.passed = false ∨ ∃ e ∈ c.fifo, e.sweep = true) : c.endedSweep = none := by
  have : (w.passed && !c.fifo.any (fun e => e.sweep)) = false := by
    rcases h with h | h
    · rw [h, Bool.false_and]
    · rw [List.any_eq_true.2 h, Bool.not_true, Bool.and_false]
  simp [Chest.endedSweep, hs, this]

/-- The end of an OFF or REVOICE sweep at the chest writer (R48). -/
theorem Chest.endSweep_plain {c : Chest} {w : Sweep} (hk : w.kind ≠ .mute) :
    c.endSweep w = { c with sweep := none } :=
  if_neg fun h => hk h.1

/-- The end of a MUTE: a union that is not empty becomes a REVOICE of it (R52). -/
theorem Chest.endSweep_mute {c : Chest} {w : Sweep} (hk : w.kind = .mute) : c.endSweep w =
    if c.union = Divisions.none then { c with sweep := none }
    else Chest.requestSweep .revoice c.union { c with sweep := none, union := Divisions.none } := by
  unfold Chest.endSweep
  by_cases hu : c.union = Divisions.none
  · rw [if_pos hu]; exact if_neg fun h => h.2 hu
  · rw [if_neg hu]; exact if_pos ⟨hk, hu⟩

theorem execSweepEnd_running {s : State} (h : s.chest.endedSweep = none) : exec .sweepEnd s = .next s := by
  show execSweepEnd s = _
  unfold execSweepEnd
  rw [h]

theorem execSweepEnd_plain {s : State} {w : Sweep} (h : s.chest.endedSweep = some w) (hk : w.kind ≠ .off) :
    exec .sweepEnd s = .next (State.pump { s with chest := s.chest.endSweep w }) := by
  show execSweepEnd s = _
  unfold execSweepEnd
  rw [h]
  simp only [if_neg hk, State.takeSweepEnd]

/-- The end of an OFF sweep, with nothing left of the run controller's frame event (R133, R160). -/
theorem execSweepEnd_off {s : State} {w : Sweep} (h : s.chest.endedSweep = some w) (hk : w.kind = .off)
    (hd : s.run.stage = .done) : exec .sweepEnd s = .next
      (State.loaderTakesSweepEnd { s with chest := { s.chest with sweep := none } }).trackerTakesSweepEnd.pump := by
  show execSweepEnd s = _
  unfold execSweepEnd
  rw [h]
  simp only [if_pos hk, State.endOff, State.finishRun_done hd, h, State.takeSweepEnd,
    Chest.endSweep_plain (c := s.chest) (w := w) (by rw [hk]; decide)]

/-! ### The held stop masks at the end of LOADING (R53, R160) -/

/-- The settings of a division with the stop-mask value held for it, if one is held. -/
def DivisionSettings.masked (held : Option Word) (x : DivisionSettings) : DivisionSettings :=
  held.elim x fun v => { x with stopMask := v }

/-- The chest with the value held for one division. -/
def Chest.takeMask (held : Vector (Option Word) 4) (c : Chest) (d : Division) : Chest :=
  { c with divisions := c.divisions.set d (c.divisions[d].masked held[d]) }

/-- With the tracker in no running state a mask change is the mask's alone (R53). -/
theorem State.maskChange_stopped {s : State} (d : Division) (v : Word) (h : s.tracker.state.running = false) :
    s.maskChange d v = { s with chest := s.chest.setMask d v } := by
  simp [State.maskChange, h]

theorem State.takeHeldMasks_stopped (held : Vector (Option Word) 4) (l : List Division) {s : State}
    (h : s.tracker.state.running = false) :
    State.takeHeldMasks held l s = { s with chest := l.foldl (Chest.takeMask held) s.chest } := by
  induction l generalizing s with
  | nil => rfl
  | cons d l ih =>
    rw [State.takeHeldMasks]
    split
    · next hd =>
      rw [ih h, List.foldl_cons]
      simp [Chest.takeMask, DivisionSettings.masked, hd]
    · next v hd =>
      rw [State.maskChange_stopped d v h, ih (by exact h), List.foldl_cons]
      simp [Chest.takeMask, DivisionSettings.masked, hd, Chest.setMask, Chest.division]

theorem Chest.takeMasks_all (held : Vector (Option Word) 4) (c : Chest) :
    divisionOrder.foldl (Chest.takeMask held) c =
      { c with divisions := Vector.ofFn fun d : Division => c.divisions[d].masked held[d] } := by
  simp only [divisionOrder, List.foldl_cons, List.foldl_nil, Chest.takeMask]
  congr 1
  ext d hd
  interval_cases d <;> simp

/-- LOADING ends in CONFIGURED with the tracker in no running state (R160). -/
theorem State.enterConfigured_stopped {s : State} (h : s.tracker.state.running = false) : s.enterConfigured =
    { s with
      chest := { s.chest with
        divisions := Vector.ofFn fun d : Division => s.chest.divisions[d].masked s.loader.heldMasks[d] },
      loader := { s.loader with
        config := .configured, load := none, heldMasks := Vector.replicate 4 none,
        noted := Vector.replicate 12 none, pickupList := notedFetches s.loader.noted, pickupGot := [] },
      report := { s.report with refreshDue := s.report.refreshDue ||
        (s.loader.config != .configured && s.loader.installed.isSome) } } := by
  unfold State.enterConfigured
  rw [State.setConfig_eq, State.takeHeldMasks_stopped _ _ (by exact h), Chest.takeMasks_all]
  rfl

/-! ### The tracker comes to IDLE -/

/-- The run controller at the tracker's entry into IDLE: the hold timer starts, or with WindHold 0 WINDREQ falls
(R144). -/
theorem RunControl.announce_idle (windHold : Nat) (r : RunControl) : r.announce windHold .idle =
    if windHold = 0 then
      { r with announced := .idle, hold := 0, holdRunning := false, windReq := false, wind := .unrequested }
    else { r with announced := .idle, hold := windHold * 1000, holdRunning := true } := rfl

theorem Matcher.announce_idle (old : TrackerState) (m : Matcher) :
    m.announce old .idle = { m with announced := .idle, expiryDue := false } := by
  simp [Matcher.announce]

/-- The tracker's entry into IDLE, without a load that was deferred (R115, R133). -/
theorem State.announce_idle {s : State} {i : Installed} {old : TrackerState} (cause : StateCause)
    (hi : s.loader.installed = some i) (ht : s.tracker.state = old) : s.announce .idle cause =
    { s with
      tracker := { s.tracker with state := .idle },
      matcher := { s.matcher with announced := .idle, expiryDue := false },
      fuser := { window := none, running := false },
      run := s.run.announce i.windHold .idle,
      loader := { s.loader with announced := .idle },
      report := { s.report with refreshDue := true },
      raised := s.raised ++ [s.reported .tracker (.state old .idle cause)] } := by
  subst ht
  rw [State.announce_installed _ _ hi, Matcher.announce_idle]
  rfl

theorem State.changeState_idle {s : State} (cause : StateCause) (h : s.loader.config ≠ .deferred) :
    s.changeState .idle cause = s.announce .idle cause :=
  if_neg h

/-- A deferred load begins as the tracker comes to IDLE (R162). -/
theorem State.changeState_idle_deferred {s : State} (cause : StateCause) (h : s.loader.config = .deferred) :
    s.changeState .idle cause = (s.announce .idle cause).loadStart :=
  if_pos h

/-! ### Who takes the end -/

theorem State.loaderTakesSweepEnd_cleared {s : State} (h1 : s.loader.config = .loading) (h2 : s.loader.load = none) :
    s.loaderTakesSweepEnd = s.enterConfigured :=
  if_pos ⟨h1, h2⟩

theorem State.loaderTakesSweepEnd_other {s : State} (h : s.loader.config = .loading → s.loader.load ≠ none) :
    s.loaderTakesSweepEnd = s :=
  if_neg fun ⟨h1, h2⟩ => h h1 h2

theorem State.trackerTakesSweepEnd_stopping {s : State} (h : s.tracker.state = .stopping) :
    s.trackerTakesSweepEnd = s.changeState .idle .sweepDone :=
  if_pos h

theorem State.trackerTakesSweepEnd_other {s : State} (h : s.tracker.state ≠ .stopping) :
    s.trackerTakesSweepEnd = s :=
  if_neg h

/-- The port at the start of a load: a read of the part is abandoned, and so is a chest write (R8, R155, R158). -/
theorem abandonForLoad_discardFetch_fetchRead {s : State} {a : Nat} {b : Bool}
    (h : s.path.port = some (.fetchRead a b)) :
    abandonForLoad s.discardFetch.path.port = some (.fetchRead a true) := by
  simp [State.discardFetch, h, abandonForLoad, abandonChestWrite]

theorem abandonForLoad_discardFetch_other {s : State} (h : ∀ a b, s.path.port ≠ some (.fetchRead a b)) :
    abandonForLoad s.discardFetch.path.port = abandonForLoad s.path.port := by
  refine congrArg abandonForLoad ?_
  unfold State.discardFetch
  dsimp only
  split
  · next a b hp => exact absurd hp (h a b)
  · rfl

end Sys2Proof.Machine

open Sys2Proof Sys2Proof.Machine

/-- Settles O57: which blocks take the end of the sweep, and a REVOICE request by the running sweep. -/
theorem sweepEndTaken : Obligations.SweepEndTaken := by
  rintro i w idle divisions fetches s hw hi hs hidle hdiv rfl
  rw [← RunControl.announce_idle] at hidle
  have masks : (Vector.ofFn fun d : Division => s.chest.divisions[d].masked s.loader.heldMasks[d]) = divisions := by
    rw [hdiv]
    congr 1
    funext d
    cases s.loader.heldMasks[d] <;> rfl
  refine ⟨Chest.afterRevoice_requestSweep, fun h => execSweepEnd_running (Chest.endedSweep_running hs h),
    fun hp hq => ?_⟩
  subst masks hidle
  have ended := Chest.endedSweep_ended hs hp hq
  refine ⟨fun hk hd ht => ⟨fun hc => ?_, fun hc => ?_, fun hc hl => ?_⟩, fun hk hd ht hc hl => ?_, fun hk => ?_,
    fun hk => ?_⟩
  · have kept : s.loader.config ≠ .deferred ∧ (s.loader.config = .loading → s.loader.load ≠ none) := by
      rcases hc with hc | ⟨hc, hl⟩
      · simp [hc]
      · exact ⟨by simp [hc], fun _ => hl⟩
    refine pumped (execSweepEnd_off ended hk hd) ?_ hw
    rw [State.loaderTakesSweepEnd_other (by exact kept.2), State.trackerTakesSweepEnd_stopping (by exact ht),
      State.changeState_idle _ (by exact kept.1), State.announce_idle _ (by exact hi) (by exact ht)]
    rfl
  · refine pumped (execSweepEnd_off ended hk hd) ?_ hw
    rw [State.loaderTakesSweepEnd_other (by simp [hc]), State.trackerTakesSweepEnd_stopping (by exact ht),
      State.changeState_idle_deferred _ (by exact hc), State.announce_idle _ (by exact hi) (by exact ht),
      State.loadStart_eq]
    split
    · next a b hp => rw [abandonForLoad_discardFetch_fetchRead (a := a) (b := b) (by exact hp)]; rfl
    · next hp => rw [abandonForLoad_discardFetch_other (by exact hp)]; rfl
  · have hr : s.tracker.state.running = false := by rw [ht]; rfl
    refine pumped (execSweepEnd_off ended hk hd) ?_ hw
    rw [State.loaderTakesSweepEnd_cleared (by exact hc) (by exact hl),
      State.enterConfigured_stopped (by exact hr),
      State.trackerTakesSweepEnd_stopping (by exact ht), State.changeState_idle _ (by simp),
      State.announce_idle _ (by exact hi) (by exact ht)]
    rfl
  · have hr : s.tracker.state.running = false := by rw [ht]; rfl
    have due : (s.report.refreshDue || (s.loader.config != .configured && s.loader.installed.isSome)) = true := by
      simp [hc, hi]
    refine pumped (execSweepEnd_off ended hk hd) ?_ hw
    rw [State.loaderTakesSweepEnd_cleared (by exact hc) (by exact hl),
      State.enterConfigured_stopped (by exact hr),
      State.trackerTakesSweepEnd_other (by simp [ht])]
    simp only [due]
    rfl
  · refine pumped (execSweepEnd_plain ended (by simp [hk])) ?_ hw
    rw [Chest.endSweep_mute hk]
  · refine pumped (execSweepEnd_plain ended (by simp [hk])) ?_ hw
    rw [Chest.endSweep_plain (by simp [hk])]
end

section
/-! The orders of R21 and R97: what an insertion, a removal and an emptying keep, and that every operation of the model
changes the two ordered collections in no other way. -/

namespace Sys2Proof.Machine

/-! ### The orders -/

/-- The order of R21 by stamp, kind rank and admission order. -/
theorem HoldEntry.before_iff {e f : HoldEntry} : e.before f = true ↔
    e.stamp < f.stamp ∨ e.stamp = f.stamp
      ∧ (e.kind.rank < f.kind.rank ∨ e.kind.rank = f.kind.rank ∧ e.order < f.order) := by
  simp [HoldEntry.before]

/-- The order of R97 by stamp and admission order. -/
theorem CueEntry.before_iff {e f : CueEntry} : e.before f = true ↔
    e.stamp < f.stamp ∨ e.stamp = f.stamp ∧ e.order < f.order := by
  simp [CueEntry.before]

theorem HoldEntry.before_trans {e f g : HoldEntry} (h : e.before f = true) (k : f.before g = true) :
    e.before g = true := by
  rw [HoldEntry.before_iff] at *
  omega

theorem CueEntry.before_trans {e f g : CueEntry} (h : e.before f = true) (k : f.before g = true) :
    e.before g = true := by
  rw [CueEntry.before_iff] at *
  omega

/-- An entry admitted later stands behind each entry that it does not stand before (R21). -/
theorem HoldEntry.before_of_not {e f : HoldEntry} (ho : f.order < e.order) (h : ¬ e.before f = true) :
    f.before e = true := by
  rw [HoldEntry.before_iff] at *
  omega

/-- A cue admitted later stands behind each cue that it does not stand before (R97). -/
theorem CueEntry.before_of_not {e f : CueEntry} (ho : f.order < e.order) (h : ¬ e.before f = true) :
    f.before e = true := by
  rw [CueEntry.before_iff] at *
  omega

theorem holdSorted_iff (q : List HoldEntry) : holdSorted q = true ↔ q.Pairwise (fun e f => e.before f = true) := by
  induction q with
  | nil => simp [holdSorted]
  | cons e q ih => simp [holdSorted, ih]

theorem cueSorted_iff (q : List CueEntry) : cueSorted q = true ↔ q.Pairwise (fun e f => e.before f = true) := by
  induction q with
  | nil => simp [cueSorted]
  | cons e q ih => simp [cueSorted, ih]

theorem holdInsert_eq (e : HoldEntry) (q : List HoldEntry) :
    holdInsert e q = q.orderedInsert (fun e f => e.before f = true) e := by
  induction q with
  | nil => rfl
  | cons f q ih => simp only [holdInsert, List.orderedInsert_cons, ih]

theorem cueInsert_eq (e : CueEntry) (q : List CueEntry) :
    cueInsert e q = q.orderedInsert (fun e f => e.before f = true) e := by
  induction q with
  | nil => rfl
  | cons f q ih => simp only [cueInsert, List.orderedInsert_cons, ih]

/-- An entry placed ahead of the first that it stands before keeps an order in which it is comparable with each. -/
theorem orderedInsert_pairwise {α : Type} {r : α → α → Prop} [DecidableRel r]
    (trans : ∀ {x y z}, r x y → r y z → r x z) {e : α} {q : List α} (hq : q.Pairwise r)
    (total : ∀ f ∈ q, ¬ r e f → r f e) : (q.orderedInsert r e).Pairwise r := by
  induction q with
  | nil => exact List.pairwise_singleton r e
  | cons f q ih =>
    obtain ⟨hf, hq'⟩ := List.pairwise_cons.1 hq
    rw [List.orderedInsert_cons]
    split
    · next h =>
      refine List.pairwise_cons.2 ⟨fun x hx => ?_, hq⟩
      rcases List.mem_cons.1 hx with rfl | hx
      · exact h
      · exact trans h (hf x hx)
    · next h =>
      refine List.pairwise_cons.2 ⟨fun x hx => ?_, ih hq' fun x hx => total x (List.mem_cons_of_mem f hx)⟩
      rcases (List.mem_orderedInsert r).1 hx with rfl | hx
      · exact total f List.mem_cons_self h
      · exact hf x hx

/-! ### The ordered collections of a state -/

/-- The two ordered collections, and the admission order that the next entry placed takes (R13). -/
structure Ranks where
  hold      : List HoldEntry
  cues      : List CueEntry
  nextOrder : Nat

/-- The ordered collections of a state. -/
def State.ranks (s : State) : Ranks :=
  { hold := s.release.hold, cues := s.matcher.cues, nextOrder := s.admission.nextOrder }

/-- The collections are in the orders of R21 and R97, below the next admission order. -/
structure Ranks.Ordered (x : Ranks) : Prop where
  hold      : x.hold.Pairwise (fun e f => e.before f = true)
  cues      : x.cues.Pairwise (fun e f => e.before f = true)
  holdBelow : ∀ e ∈ x.hold, e.order < x.nextOrder
  cuesBelow : ∀ e ∈ x.cues, e.order < x.nextOrder

theorem State.collectionsOrdered_iff (s : State) : s.collectionsOrdered = true ↔ s.ranks.Ordered := by
  simp only [State.collectionsOrdered, Bool.and_eq_true, holdSorted_iff, cueSorted_iff, List.all_eq_true,
    decide_eq_true_eq]
  exact ⟨fun ⟨⟨⟨h1, h2⟩, h3⟩, h4⟩ => ⟨h1, h2, h3, h4⟩,
    fun ⟨h1, h2, h3, h4⟩ => ⟨⟨⟨h1, h2⟩, h3⟩, h4⟩⟩

/-- Entries leave, and the next admission order does not fall. -/
theorem Ranks.Ordered.thin {x y : Ranks} (h : x.Ordered) (hh : y.hold.Sublist x.hold) (hc : y.cues.Sublist x.cues)
    (ho : x.nextOrder ≤ y.nextOrder) : y.Ordered where
  hold := h.hold.sublist hh
  cues := h.cues.sublist hc
  holdBelow e he := Nat.lt_of_lt_of_le (h.holdBelow e (hh.subset he)) ho
  cuesBelow e he := Nat.lt_of_lt_of_le (h.cuesBelow e (hc.subset he)) ho

theorem Ranks.Ordered.empty (n : Nat) : Ranks.Ordered { hold := [], cues := [], nextOrder := n } :=
  ⟨.nil, .nil, nofun, nofun⟩

/-- An entry takes its place in the hold queue with the next admission order (R13, R21). -/
theorem Ranks.Ordered.placeHold {x : Ranks} (h : x.Ordered) {e : HoldEntry} (he : e.order = x.nextOrder) :
    Ranks.Ordered { x with hold := holdInsert e x.hold, nextOrder := x.nextOrder + 1 } where
  hold := by
    rw [holdInsert_eq]
    have later : ∀ f ∈ x.hold, f.order < e.order := fun f hf => he ▸ h.holdBelow f hf
    exact orderedInsert_pairwise (r := fun e f => e.before f = true) HoldEntry.before_trans h.hold
      fun f hf => HoldEntry.before_of_not (later f hf)
  cues := h.cues
  holdBelow f hf := by
    rcases List.mem_cons.1 ((holdInsert_perm e x.hold).mem_iff.1 hf) with rfl | hf
    · exact he ▸ Nat.lt_succ_self _
    · exact Nat.lt_succ_of_lt (h.holdBelow f hf)
  cuesBelow f hf := Nat.lt_succ_of_lt (h.cuesBelow f hf)

/-- A cue takes its place in the cue list with the next admission order (R13, R97). -/
theorem Ranks.Ordered.placeCue {x : Ranks} (h : x.Ordered) {e : CueEntry} (he : e.order = x.nextOrder) :
    Ranks.Ordered { x with cues := cueInsert e x.cues, nextOrder := x.nextOrder + 1 } where
  hold := h.hold
  cues := by
    rw [cueInsert_eq]
    have later : ∀ f ∈ x.cues, f.order < e.order := fun f hf => he ▸ h.cuesBelow f hf
    exact orderedInsert_pairwise (r := fun e f => e.before f = true) CueEntry.before_trans h.cues
      fun f hf => CueEntry.before_of_not (later f hf)
  holdBelow f hf := Nat.lt_succ_of_lt (h.holdBelow f hf)
  cuesBelow f hf := by
    rcases List.mem_cons.1 ((cueInsert_perm e x.cues).mem_iff.1 hf) with rfl | hf
    · exact he ▸ Nat.lt_succ_self _
    · exact Nat.lt_succ_of_lt (h.cuesBelow f hf)

/-! ### Operations that leave the ordered collections alone -/

/-- What leaves the ledger and the next admission order alone leaves the ordered collections alone. -/
theorem State.ranks_of_ledger {s t : State} (h : t.ledger = s.ledger)
    (ho : t.admission.nextOrder = s.admission.nextOrder) : t.ranks = s.ranks := by
  have hh : t.release.hold = s.release.hold := congrArg Ledger.hold h
  have hc : t.matcher.cues = s.matcher.cues := congrArg Ledger.cues h
  simp only [State.ranks, hh, hc, ho]

@[simp] theorem State.raise_ranks (b : Block) (r : Report) (s : State) : (s.raise b r).ranks = s.ranks :=
  State.ranks_of_ledger (s.raise_ledger b r) (by rw [State.raise_admission])

@[simp] theorem State.raiseAll_ranks (b : Block) (l : List Report) (s : State) :
    (State.raiseAll b l s).ranks = s.ranks :=
  State.ranks_of_ledger (s.raiseAll_ledger b l) (by rw [State.raiseAll_admission])

@[simp] theorem State.commandReport_ranks (v : Word) (x : CommandResult) (y : Option CommandReason)
    (t : TrackerState) (m n : Nat) (s : State) : (s.commandReport v x y t m n).ranks = s.ranks :=
  State.raise_ranks _ _ _

@[simp] theorem State.bringCounts_ranks (s : State) : s.bringCounts.ranks = s.ranks := by
  unfold State.bringCounts; split
  · rfl
  · exact State.commandReport_ranks ..

@[simp] theorem State.reportsFor_ranks (b : Block) (s : State) : (s.reportsFor b).ranks = s.ranks := by
  unfold State.reportsFor; split
  · exact State.bringCounts_ranks s
  · rfl

@[simp] theorem State.demandRefresh_ranks (s : State) : s.demandRefresh.ranks = s.ranks :=
  State.ranks_of_ledger s.demandRefresh_ledger (by rw [State.demandRefresh_admission])

@[simp] theorem State.frameRefresh_ranks (s : State) : s.frameRefresh.ranks = s.ranks := by
  unfold State.frameRefresh; split
  · exact State.demandRefresh_ranks s
  · rfl

@[simp] theorem State.setConfig_ranks (c : ConfigState) (s : State) : (s.setConfig c).ranks = s.ranks := by
  rw [State.setConfig_eq]; rfl

@[simp] theorem State.noteEmptied_ranks (c : StarvedCause) (n : Option Nat) (s : State) :
    (s.noteEmptied c n).ranks = s.ranks :=
  State.ranks_of_ledger (s.noteEmptied_ledger c n) (by rw [State.noteEmptied_admission])

@[simp] theorem State.announce_ranks (n : TrackerState) (c : StateCause) (s : State) :
    (s.announce n c).ranks = s.ranks :=
  State.ranks_of_ledger (s.announce_ledger n c) (by rw [State.announce_admission])

@[simp] theorem State.discardFetch_ranks (s : State) : s.discardFetch.ranks = s.ranks := rfl

@[simp] theorem State.freeSlots_ranks (l : List Nat) (s : State) : (State.freeSlots l s).ranks = s.ranks := by
  rw [State.freeSlots_fold]; rfl

@[simp] theorem State.requestSweep_ranks (k : SweepKind) (set : Divisions) (s : State) :
    (s.requestSweep k set).ranks = s.ranks := rfl

@[simp] theorem State.maskChange_ranks (d : Division) (v : Word) (s : State) : (s.maskChange d v).ranks = s.ranks := by
  unfold State.maskChange; dsimp only; split <;> rfl

@[simp] theorem State.takeHeldMasks_ranks (held : Vector (Option Word) 4) (l : List Division) (s : State) :
    (State.takeHeldMasks held l s).ranks = s.ranks := by
  induction l generalizing s with
  | nil => rfl
  | cons d l ih =>
    unfold State.takeHeldMasks; split
    · exact ih s
    · exact (ih _).trans (State.maskChange_ranks _ _ s)

@[simp] theorem State.recomputeLag_ranks (s : State) : s.recomputeLag.ranks = s.ranks := by
  unfold State.recomputeLag; split <;> rfl

@[simp] theorem State.drop_ranks (a : Nat) (v : Word) (r : DropRegion) (s : State) : (s.drop a v r).ranks = s.ranks :=
  State.raise_ranks _ _ _

@[simp] theorem State.consumerWrite_ranks (v : Word) (s : State) : (s.consumerWrite v).ranks = s.ranks := by
  unfold State.consumerWrite; split <;> rfl

@[simp] theorem State.finishReportWrite_ranks (s : State) : s.finishReportWrite.ranks = s.ranks := by
  unfold State.finishReportWrite; split <;> rfl

@[simp] theorem State.pickupHeldWrite_ranks (k : PickupNo) (s : State) : (s.pickupHeldWrite k).ranks = s.ranks := by
  unfold State.pickupHeldWrite; split <;> rfl

@[simp] theorem State.pickupCommitWrite_ranks (k : PickupNo) (v : Word) (s : State) :
    (s.pickupCommitWrite k v).ranks = s.ranks := by
  unfold State.pickupCommitWrite
  split
  · rfl
  · split <;> rfl
  · exact s.pickupHeldWrite_ranks k
  · exact s.pickupHeldWrite_ranks k

@[simp] theorem State.stopMaskWrite_ranks (d : Division) (v : Word) (s : State) :
    (s.stopMaskWrite d v).ranks = s.ranks := by
  unfold State.stopMaskWrite
  dsimp only; split
  · rfl
  · rfl
  · exact State.maskChange_ranks ..
  · exact State.maskChange_ranks ..

@[simp] theorem State.enterConfigured_ranks (s : State) : s.enterConfigured.ranks = s.ranks :=
  (State.takeHeldMasks_ranks _ _ _).trans (s.setConfig_ranks .configured)

@[simp] theorem State.rejectAnchor_ranks (r : AnchorReason) (s : State) : (s.rejectAnchor r).ranks = s.ranks := by
  unfold State.rejectAnchor State.sweepIfStopping
  split
  · split <;> simp
  · exact s.setConfig_ranks .unconfigured

@[simp] theorem State.install_ranks (ws : List Word) (s : State) : (s.install ws).ranks = s.ranks := by
  unfold State.install
  exact (State.recomputeLag_ranks _).trans s.bringCounts_ranks

@[simp] theorem State.anchorReadWord_ranks (w : Word) (s : State) : (s.anchorReadWord w).ranks = s.ranks := by
  unfold State.anchorReadWord State.judgeAnchor
  split
  · rfl
  · dsimp only; split
    · split <;> simp
    · rfl

@[simp] theorem State.markDue_ranks (s : State) : s.markDue.ranks = s.ranks := by
  unfold State.markDue; split <;> rfl

@[simp] theorem State.releaseReport_ranks (i : Installed) (e : HoldEntry) (s : State) :
    (s.releaseReport i e).ranks = s.ranks := by
  unfold State.releaseReport; split
  · exact State.raise_ranks _ _ _
  · rfl

@[simp] theorem State.noteAction_ranks (i : Installed) (e : HoldEntry) (on : Bool) (s : State) :
    (s.noteAction i e on).ranks = s.ranks := State.raiseAll_ranks _ _ _

/-! ### The arbiter and the fetch leave them alone (R6, R155) -/

@[simp] theorem State.grant_ranks (a : PortAccess) (s : State) : (s.grant a).ranks = s.ranks := by
  cases a <;> rfl

@[simp] theorem State.countYield_ranks (s : State) : s.countYield.ranks = s.ranks := by
  unfold State.countYield; split <;> rfl

@[simp] theorem State.grantPart_ranks (s : State) : s.grantPart.ranks = s.ranks := by
  unfold State.grantPart; split
  · rfl
  · rfl
  · simp

@[simp] theorem State.grantWriteBack_ranks (s : State) : s.grantWriteBack.ranks = s.ranks := by
  unfold State.grantWriteBack; split
  · simp
  · rfl

@[simp] theorem State.grantProcessor_ranks (a : ProcAccess) (s : State) : (s.grantProcessor a).ranks = s.ranks := by
  unfold State.grantProcessor; split
  · rfl
  · split
    · exact (State.grantPart_ranks _).trans (State.drop_ranks _ _ _ s.takeWaiting)
    · rfl

@[simp] theorem State.arbitrate_ranks (s : State) : s.arbitrate.ranks = s.ranks := by
  unfold State.arbitrate; split
  · rfl
  · split
    · exact s.grantPart_ranks
    · split
      · exact s.grantProcessor_ranks _
      · exact s.grantPart_ranks

@[simp] theorem State.beginFetch_ranks (s : State) : s.beginFetch.ranks = s.ranks := by
  unfold State.beginFetch; split
  · rfl
  · split <;> rfl

@[simp] theorem State.postFetch_ranks (s : State) : s.postFetch.ranks = s.ranks := by
  unfold State.postFetch; split
  · split <;> rfl
  · rfl

@[simp] theorem State.pump_ranks (s : State) : s.pump.ranks = s.ranks := by
  have arbitrated : s.beginFetch.postFetch.arbitrate.ranks = s.ranks := by simp
  exact arbitrated

/-! ### States that stay in order -/

/-- If state s has its collections in order, so has state t. -/
def State.KeepsOrder (s t : State) : Prop := s.ranks.Ordered → t.ranks.Ordered

theorem State.KeepsOrder.refl (s : State) : s.KeepsOrder s := id

theorem State.KeepsOrder.trans {s t u : State} (h : s.KeepsOrder t) (k : t.KeepsOrder u) : s.KeepsOrder u := k ∘ h

theorem State.KeepsOrder.same {s t : State} (h : t.ranks = s.ranks) : s.KeepsOrder t := fun hs => h ▸ hs

theorem State.KeepsOrder.from {s t u : State} (h : t.KeepsOrder u) (k : t.ranks = s.ranks) : s.KeepsOrder u :=
  (State.KeepsOrder.same k).trans h

theorem State.KeepsOrder.to {s t u : State} (h : s.KeepsOrder t) (k : u.ranks = t.ranks) : s.KeepsOrder u :=
  h.trans (.same k)

/-- Entries leave a collection (R16). -/
theorem State.KeepsOrder.thin {s t : State} (hh : t.release.hold.Sublist s.release.hold)
    (hc : t.matcher.cues.Sublist s.matcher.cues) (ho : s.admission.nextOrder ≤ t.admission.nextOrder) :
    s.KeepsOrder t :=
  fun hs => hs.thin hh hc ho

/-- Both collections are emptied (R34, R112). -/
theorem State.KeepsOrder.emptied {s t : State} (hh : t.release.hold = []) (hc : t.matcher.cues = []) :
    s.KeepsOrder t := fun _ => by
  unfold State.ranks
  rw [hh, hc]
  exact .empty _

/-! ### Changes of tracker state (R115) -/

theorem State.loadStart_keepsOrder (s : State) : s.KeepsOrder s.loadStart :=
  .emptied (by rw [State.loadStart_eq]) (by rw [State.loadStart_eq])

theorem State.teardown_keepsOrder (s : State) : s.KeepsOrder s.teardown := .emptied rfl rfl

theorem State.beginRun_keepsOrder (b : Bool) (s : State) : s.KeepsOrder (s.beginRun b) := by
  refine .to ?_ (State.noteEmptied_ranks _ _ _)
  split
  · exact .same rfl
  · exact .refl s

theorem State.changeState_keepsOrder (n : TrackerState) (c : StateCause) (s : State) :
    s.KeepsOrder (s.changeState n c) := by
  have announced := s.announce_ranks n c
  unfold State.changeState
  cases n with
  | stopping => exact (State.teardown_keepsOrder _).from announced
  | halted => exact .same announced
  | leading =>
    dsimp only; split
    · exact (State.beginRun_keepsOrder _ _).from announced
    · exact .same announced
  | idle =>
    dsimp only; split
    · exact (State.loadStart_keepsOrder _).from announced
    · exact .same announced
  | winding | following | coasting | waiting => exact .same announced

theorem State.changeAll_keepsOrder (l : List (TrackerState × StateCause)) (s : State) :
    s.KeepsOrder (State.changeAll l s) := by
  induction l generalizing s with
  | nil => exact .refl s
  | cons c l ih => exact (State.changeState_keepsOrder _ _ _).trans (ih _)

theorem State.applyTracker_keepsOrder (r : TrackerResult) (s : State) : s.KeepsOrder (s.applyTracker r) :=
  (State.changeAll_keepsOrder _ _).from (State.raiseAll_ranks _ _ _)

/-! ### The cue matcher and the sense link (R16, R100, R121) -/

theorem State.deliver_keepsOrder (m : Option Message) (s : State) : s.KeepsOrder (s.deliver m) := by
  unfold State.deliver; dsimp only; split
  · exact .refl s
  · refine (State.applyTracker_keepsOrder _ _).from ?_
    split
    · rfl
    · simp only [State.ranks, Matcher.stopTimer_cues]

theorem State.applyMatcher_keepsOrder {r : MatcherResult} {s : State} (h : r.Leaves s.matcher) :
    s.KeepsOrder (s.applyMatcher r) := by
  have thinned : s.KeepsOrder { s with matcher := r.matcher } := .thin (.refl _) h.1.sub (Nat.le_refl _)
  exact thinned.trans ((State.deliver_keepsOrder _ _).from (by simp))

theorem State.takeFused_keepsOrder (o : Option FusedOnset) (s : State) : s.KeepsOrder (s.takeFused o) := by
  unfold State.takeFused; split
  · exact .refl s
  · exact State.applyMatcher_keepsOrder (Matcher.takeFused_leaves _ _ _)

theorem State.takeOnset_keepsOrder (o : Option Onset) (s : State) : s.KeepsOrder (s.takeOnset o) := by
  unfold State.takeOnset; split
  · exact (State.takeFused_keepsOrder _ _).from rfl
  · exact .refl s

theorem State.applyPickup_keepsOrder (k : PickupNo) (r : PickupResult) (s : State) :
    s.KeepsOrder (s.applyPickup k r) := by
  refine (State.takeOnset_keepsOrder _ _).from ((State.recomputeLag_ranks _).trans ?_)
  split
  · exact State.raise_ranks _ _ _
  · rfl

theorem State.pickupWord_keepsOrder (w : Word) (s : State) : s.KeepsOrder (s.pickupWord w) := by
  unfold State.pickupWord; split
  · exact .refl s
  · split
    · exact .same rfl
    · exact (State.applyPickup_keepsOrder _ _ _).from rfl

/-! ### The admission unit (chapter 1) -/

theorem State.listSlot_keepsOrder (n : Nat) (v : Word) (s : State) : s.KeepsOrder (s.listSlot n v) := by
  unfold State.listSlot; split
  · exact .same (State.raise_ranks _ _ _)
  · exact .same rfl

theorem State.withdrawNote_keepsOrder (n : Nat) (s : State) : s.KeepsOrder (s.withdrawNote n) := by
  unfold State.withdrawNote; dsimp only; split
  · exact .same rfl
  · have thinned : s.KeepsOrder { s.setSlot n .free with
        release := { s.release with hold := holdRemove n s.release.hold } } :=
      .thin List.filter_sublist (.refl _) (Nat.le_refl _)
    exact thinned.to (by simp)

theorem State.withdrawCue_keepsOrder (n : Nat) (s : State) : s.KeepsOrder (s.withdrawCue n) := by
  unfold State.withdrawCue; dsimp only; split
  · exact .same rfl
  · have thinned : s.KeepsOrder { s.setSlot n .free with matcher := s.matcher.withdraw n } :=
      .thin (.refl _) List.filter_sublist (Nat.le_refl _)
    exact thinned.trans ((State.deliver_keepsOrder _ _).from (State.raise_ranks _ _ _))

theorem State.editSlot_keepsOrder (n : Nat) (s : State) : s.KeepsOrder (s.editSlot n) := by
  unfold State.editSlot; split
  · exact .refl s
  · exact .refl s
  · exact .same rfl
  · exact s.withdrawNote_keepsOrder n
  · exact s.withdrawCue_keepsOrder n

theorem State.emptySlot_keepsOrder (n : Nat) (s : State) : s.KeepsOrder (s.emptySlot n) := by
  unfold State.emptySlot; split
  · exact .refl s
  · exact .same rfl
  · exact .same rfl
  · exact s.withdrawNote_keepsOrder n
  · exact s.withdrawCue_keepsOrder n

theorem State.commitSlot_keepsOrder (n : Nat) (v : Word) (s : State) : s.KeepsOrder (s.commitSlot n v) := by
  unfold State.commitSlot; split
  · exact s.listSlot_keepsOrder n v
  · exact .same rfl
  · exact .same rfl
  · exact (s.withdrawNote_keepsOrder n).trans (State.listSlot_keepsOrder n v _)
  · exact (s.withdrawCue_keepsOrder n).trans (State.listSlot_keepsOrder n v _)

theorem State.scoreWrite_keepsOrder (n k : Nat) (v : Word) (s : State) : s.KeepsOrder (s.scoreWrite n k v) := by
  unfold State.scoreWrite; split
  · split
    · exact s.editSlot_keepsOrder n
    · split
      · exact s.emptySlot_keepsOrder n
      · exact s.commitSlot_keepsOrder n v
  · exact .refl s

/-- An offer to the hold queue with the next admission order: it takes its place, or the queue is full (R13, R22). -/
theorem State.offerHold_keepsOrder {s : State} {e : HoldEntry} (he : e.order = s.admission.nextOrder) :
    s.KeepsOrder (State.offerHold e { s with
      admission := { s.admission with nextOrder := s.admission.nextOrder + 1 } }) := by
  unfold State.offerHold; split
  · refine .to ?_ (State.raise_ranks _ _ _)
    exact .thin (.refl _) (.refl _) (Nat.le_succ _)
  · exact fun hs => hs.placeHold he

/-- An offer to the cue list with the next admission order (R13, R98). -/
theorem State.offerCue_keepsOrder {s : State} {e : CueEntry} (he : e.order = s.admission.nextOrder) :
    s.KeepsOrder (State.offerCue e { s with
      admission := { s.admission with nextOrder := s.admission.nextOrder + 1 } }) := by
  unfold State.offerCue; split
  · refine .to ?_ (State.raise_ranks _ _ _)
    exact .thin (.refl _) (.refl _) (Nat.le_succ _)
  · next m hm =>
    have hcues : m.cues = cueInsert e s.matcher.cues := by
      unfold Matcher.offer at hm
      split at hm
      · cases hm
      · cases hm; rfl
    refine .trans (fun hs => ?_) (State.deliver_keepsOrder _ _)
    have placed := hs.placeCue he
    simp only [State.ranks] at placed
    rw [← hcues] at placed
    exact placed

/-- A fetched record is refused, or placed with the next admission order (R11 to R14). -/
theorem State.judgeRecord_keepsOrder (i : Installed) (n : Nat) (r : FetchedRecord) (s : State) :
    s.KeepsOrder (s.judgeRecord i n r) := by
  unfold State.judgeRecord; split
  · exact .same (State.raise_ranks _ _ _)
  · split
    · exact .same (State.raise_ranks _ _ _)
    · unfold State.placeRecord
      dsimp only; split
      · exact State.offerHold_keepsOrder rfl
      · exact State.offerCue_keepsOrder rfl

theorem State.fetchWord_keepsOrder (w : Word) (s : State) : s.KeepsOrder (s.fetchWord w) := by
  unfold State.fetchWord; split
  · exact (State.judgeRecord_keepsOrder _ _ _ _).from rfl
  · exact .same rfl
  · exact .refl s

/-! ### The run controller (chapter 8) -/

theorem State.askClear_keepsOrder (s : State) : s.KeepsOrder s.askClear := by
  have thinned : s.KeepsOrder { s with matcher := (s.matcher.clearStale s.tracker.position).matcher } :=
    .thin (.refl _) List.filter_sublist (Nat.le_refl _)
  unfold State.askClear
  exact thinned.to ((State.freeSlots_ranks _ _).trans ((State.raiseAll_ranks _ _ _).trans rfl))

theorem State.leaveWinding_keepsOrder (s : State) : s.KeepsOrder s.leaveWinding := by
  unfold State.leaveWinding; split
  · split
    · exact s.askClear_keepsOrder
    · exact State.changeAll_keepsOrder _ _
  · exact .refl s

theorem State.takeClearAnswer_keepsOrder (s : State) : s.KeepsOrder s.takeClearAnswer := by
  unfold State.takeClearAnswer; split
  · have delivered : s.KeepsOrder (State.deliver none { s with matcher := { s.matcher with clearAnswer := false } }) :=
      (State.deliver_keepsOrder _ _).from rfl
    dsimp only; split
    · exact delivered.trans ((State.leaveWinding_keepsOrder _).from rfl)
    · exact delivered
  · exact .refl s

theorem State.reportReady_keepsOrder (s : State) : s.KeepsOrder s.reportReady := by
  unfold State.reportReady; split
  · exact (State.leaveWinding_keepsOrder _).from (State.raise_ranks _ _ _)
  · exact .refl s

theorem State.runAfterSettle_keepsOrder (s : State) : s.KeepsOrder s.runAfterSettle := by
  unfold State.runAfterSettle; dsimp only; split
  · exact .same rfl
  · refine .to ?_ (rfl : State.ranks (State.runAfterLimit _) = State.ranks _)
    exact (State.reportReady_keepsOrder _).from rfl

theorem State.runAfterDrop_keepsOrder (s : State) : s.KeepsOrder s.runAfterDrop := by
  unfold State.runAfterDrop; dsimp only; split
  · exact .same rfl
  · exact (State.runAfterSettle_keepsOrder _).from rfl

theorem State.runAfterCancel_keepsOrder (s : State) : s.KeepsOrder s.runAfterCancel := by
  unfold State.runAfterCancel; split
  · exact .same rfl
  · exact s.runAfterDrop_keepsOrder

theorem State.runFrame_keepsOrder (c w : Bool) (s : State) : s.KeepsOrder (s.runFrame c w) := by
  unfold State.runFrame; dsimp only; split
  · exact (State.runAfterCancel_keepsOrder _).from rfl
  · exact .same rfl

theorem State.cancelEffect_keepsOrder (s : State) : s.KeepsOrder s.cancelEffect := by
  unfold State.cancelEffect; split
  · dsimp only; split
    · exact .same (State.raise_ranks _ _ _)
    · exact (State.changeState_keepsOrder _ _ _).from (State.raise_ranks _ _ _)
  · exact .refl s

theorem State.haltByDrop_keepsOrder (s : State) : s.KeepsOrder s.haltByDrop := by
  unfold State.haltByDrop; split
  · exact State.changeState_keepsOrder _ _ _
  · exact .refl s

theorem State.runCancelAssert_keepsOrder (s : State) : s.KeepsOrder s.runCancelAssert := by
  have cancelled : s.KeepsOrder (State.cancelEffect { s.setStage .done with
      run := { (s.setStage .done).run with cancelHeld := true } }) := (State.cancelEffect_keepsOrder _).from rfl
  exact cancelled.trans (State.runAfterCancel_keepsOrder _)

theorem State.runCancelRelease_keepsOrder (s : State) : s.KeepsOrder s.runCancelRelease := by
  unfold State.runCancelRelease
  exact (State.runAfterCancel_keepsOrder _).from rfl

theorem State.runDrop_keepsOrder (s : State) : s.KeepsOrder s.runDrop := by
  have dropped : s.KeepsOrder (State.raise .run (.wind (.dropped s.run.announced)) { s.setStage .done with
      run := { (s.setStage .done).run with wind := .unconfirmed } }) := .same (State.raise_ranks _ _ _)
  exact (dropped.trans (State.haltByDrop_keepsOrder _)).trans (State.runAfterDrop_keepsOrder _)

theorem State.runConfirm_keepsOrder (s : State) : s.KeepsOrder s.runConfirm := by
  unfold State.runConfirm
  exact (State.runAfterSettle_keepsOrder _).from rfl

theorem State.runLimit_keepsOrder (s : State) : s.KeepsOrder s.runLimit := by
  have raised := State.raise_ranks .run (.wind (.limit s.run.wind)) (s.setStage .done)
  unfold State.runLimit
  refine .to ?_ (rfl : State.ranks (State.runAfterLimit _) = State.ranks _)
  dsimp only; split
  · exact (State.changeState_keepsOrder _ _ _).from raised
  · exact .same raised

theorem State.runStage_keepsOrder (s : State) : s.KeepsOrder s.runStage := by
  unfold State.runStage; split
  · exact .refl s
  · exact s.runCancelAssert_keepsOrder
  · exact s.runCancelRelease_keepsOrder
  · exact s.runDrop_keepsOrder
  · exact s.runConfirm_keepsOrder
  · exact s.runLimit_keepsOrder
  · exact .same rfl

theorem State.finishRun_keepsOrder (s : State) : s.KeepsOrder s.finishRun :=
  ((((State.runStage_keepsOrder s).trans (State.runStage_keepsOrder _)).trans (State.runStage_keepsOrder _)).trans
    (State.runStage_keepsOrder _)).trans (State.runStage_keepsOrder _)

/-- The drop of the entries and cues below the start stamp (R33, R111). -/
theorem State.dropBelow_keepsOrder (stamp : Nat) (s : State) : s.KeepsOrder (s.dropBelow stamp) := by
  have thinned : s.KeepsOrder { s with
      release := { s.release with hold := s.release.hold.filter (fun e => stamp ≤ e.stamp) },
      matcher := s.matcher.startDrop stamp } := .thin List.filter_sublist List.filter_sublist (Nat.le_refl _)
  unfold State.dropBelow
  exact thinned.to ((State.freeSlots_ranks _ _).trans (State.freeSlots_ranks _ _))

theorem State.acceptStart_keepsOrder (s : State) : s.KeepsOrder s.acceptStart := by
  have winding : s.KeepsOrder (State.changeState .winding .start { s.bringCounts with
      tracker := s.bringCounts.tracker.start s.run.startStamp s.bringCounts.run.nominal.toNat }) :=
    (State.changeState_keepsOrder _ _ _).from s.bringCounts_ranks
  exact winding.trans ((State.dropBelow_keepsOrder _ _).from rfl)

theorem State.takeStart_keepsOrder (i : Installed) (s : State) : s.KeepsOrder (s.takeStart i) := by
  unfold State.takeStart; split
  · exact .same (State.commandReport_ranks ..)
  · exact s.acceptStart_keepsOrder

theorem State.takeStop_keepsOrder (s : State) : s.KeepsOrder s.takeStop := by
  unfold State.takeStop; split
  · exact .same (State.commandReport_ranks ..)
  · exact (State.changeState_keepsOrder _ _ _).from (State.commandReport_ranks ..)

theorem State.takeResume_keepsOrder (s : State) : s.KeepsOrder s.takeResume := by
  unfold State.takeResume; split
  · exact .same (State.commandReport_ranks ..)
  · exact (State.changeState_keepsOrder _ _ _).from (s.commandReport_ranks 3 .accepted none s.run.announced 0 0)

theorem State.command_keepsOrder (v : Word) (s : State) : s.KeepsOrder (s.command v) := by
  unfold State.command
  split
  · exact .refl s
  split
  · exact .refl s
  refine s.finishRun_keepsOrder.trans ?_
  split
  · exact State.takeStart_keepsOrder _ _
  split
  · exact State.takeStop_keepsOrder _
  split
  · exact State.takeResume_keepsOrder _
  · exact .same (State.commandReport_ranks ..)

/-! ### The memory path (chapter 9) -/

theorem State.anchorCommit_keepsOrder (s : State) : s.KeepsOrder s.anchorCommit := by
  unfold State.anchorCommit; split
  · exact s.loadStart_keepsOrder
  · exact s.loadStart_keepsOrder
  · split
    · exact s.loadStart_keepsOrder
    · exact .same (by simp)
  · exact .refl s

theorem State.anchorSnoop_keepsOrder (n : Nat) (v : Word) (s : State) : s.KeepsOrder (s.anchorSnoop n v) := by
  unfold State.anchorSnoop
  split
  · exact .refl s
  split
  · split
    · exact .same (State.stopMaskWrite_ranks _ _ _)
    · exact .refl s
  split
  · dsimp only; split
    · exact .same (State.pickupCommitWrite_ranks _ _ _)
    · exact .same (State.pickupHeldWrite_ranks _ _)
  split
  · exact .same rfl
  split
  · exact .same rfl
  split
  · exact .same rfl
  split
  · exact s.command_keepsOrder v
  split
  · exact .same (s.consumerWrite_ranks v)
  · exact s.anchorCommit_keepsOrder

theorem State.storeAndSnoop_keepsOrder (a : Nat) (v : Word) (s : State) : s.KeepsOrder (s.storeAndSnoop a v) := by
  refine State.KeepsOrder.from (t := s.store a v) ?_ rfl
  unfold State.storeAndSnoop State.snoop
  split
  · exact State.anchorSnoop_keepsOrder _ _ _
  · exact State.scoreWrite_keepsOrder _ _ _ _
  · exact .refl _

/-- The completion of the access that was on the port (R154). -/
theorem State.complete_keepsOrder (a : PortAccess) (s : State) : s.KeepsOrder (s.complete a) := by
  unfold State.complete
  split
  · unfold State.finishChestWrite; split <;> exact .same rfl
  · split
    · exact .refl s
    · exact s.fetchWord_keepsOrder _
  · split
    · exact .refl s
    · exact .same (s.anchorReadWord_ranks _)
  · split
    · exact .refl s
    · exact s.pickupWord_keepsOrder _
  · exact .same rfl
  · split
    · exact .same rfl
    · exact .same (State.finishReportWrite_ranks _)
  · exact .same rfl
  · exact (State.storeAndSnoop_keepsOrder _ _ s.releaseProcessor).from rfl

theorem State.portDone_keepsOrder (s : State) : s.KeepsOrder s.portDone := by
  unfold State.portDone; split
  · exact .refl s
  · next a _ =>
    have completed : s.KeepsOrder (State.complete a { s with path := { s.path with port := none } }) :=
      (State.complete_keepsOrder _ _).from rfl
    exact completed.to (State.pump_ranks _)

theorem State.driveProcessor_keepsOrder (s : State) : s.KeepsOrder s.driveProcessor := by
  unfold State.driveProcessor; split
  · split
    · exact s.portDone_keepsOrder
    · exact .same s.grantWriteBack_ranks
  · exact .refl s

theorem State.flushProcessor_keepsOrder (s : State) : s.KeepsOrder s.flushProcessor := by
  have next : ∀ {t : State}, s.KeepsOrder t → s.KeepsOrder t.driveProcessor :=
    fun h => h.trans (State.driveProcessor_keepsOrder _)
  exact next (next (next (next (next (next (.refl s))))))

theorem State.access_keepsOrder (a : ProcAccess) (s : State) : s.KeepsOrder (s.access a) := by
  refine s.flushProcessor_keepsOrder.trans ?_
  unfold State.access
  dsimp only; split
  · exact .same (State.drop_ranks _ _ _ _)
  · split
    · exact .same rfl
    · refine .to ?_ (State.pump_ranks _)
      cases a with
      | read n => exact .same rfl
      | write n v => exact State.storeAndSnoop_keepsOrder _ _ _

/-! ### The start of a frame (R59) -/

theorem State.closeWindow_keepsOrder (s : State) : s.KeepsOrder s.closeWindow := by
  unfold State.closeWindow; split
  · exact .refl s
  · split
    · exact (State.takeFused_keepsOrder _ _).from rfl
    · exact .refl s

theorem State.expireWait_keepsOrder (s : State) : s.KeepsOrder s.expireWait := by
  unfold State.expireWait; split
  · exact .refl s
  · split
    · exact State.applyMatcher_keepsOrder (Matcher.expireWait_leaves _ _)
    · exact .refl s

theorem State.finishFrame_keepsOrder (s : State) : s.KeepsOrder s.finishFrame :=
  ((s.finishRun_keepsOrder.trans (State.expireWait_keepsOrder _)).trans (State.closeWindow_keepsOrder _)).to
    (State.markDue_ranks _)

theorem State.expireCues_keepsOrder (lossLimit trail n : Nat) (s : State) :
    s.KeepsOrder (State.expireCues lossLimit trail n s) := by
  induction n generalizing s with
  | zero => exact .refl s
  | succ n ih =>
    unfold State.expireCues; split
    · exact .refl s
    · next h => exact (State.applyMatcher_keepsOrder (Matcher.expireOne_leaves h)).trans (ih _)

theorem State.matcherFrame_keepsOrder (s : State) : s.KeepsOrder s.matcherFrame := by
  unfold State.matcherFrame; split
  · exact .refl s
  · next i _ =>
    have ticked : s.KeepsOrder { s with matcher := s.matcher.tick i.waitLimit } :=
      .same (by simp only [State.ranks, Matcher.tick_cues])
    dsimp only; split
    · exact ticked.trans (State.expireCues_keepsOrder _ _ _ _)
    · exact ticked

theorem State.frameBlocks_keepsOrder (c w : Bool) (o : FrameOrder) (s : State) :
    s.KeepsOrder (s.frameBlocks c w o) := by
  have T : ∀ t : State, t.KeepsOrder t.trackerFrame := fun t => State.applyTracker_keepsOrder _ t
  have M := State.matcherFrame_keepsOrder
  have R := State.runFrame_keepsOrder c w
  cases o with
  | tmr => exact ((T s).trans (M _)).trans (R _)
  | trm => exact ((T s).trans (R _)).trans (M _)
  | mtr => exact ((M s).trans (T _)).trans (R _)
  | mrt => exact ((M s).trans (R _)).trans (T _)
  | rtm => exact ((R s).trans (T _)).trans (M _)
  | rmt => exact ((R s).trans (M _)).trans (T _)

/-! ### Releases and sweeps -/

theorem State.dispatch_keepsOrder (i : Installed) (e : HoldEntry) (s : State) : s.KeepsOrder (s.dispatch i e) := by
  unfold State.dispatch; split
  · exact .same (State.noteAction_ranks _ _ _ s)
  · exact .same (State.noteAction_ranks _ _ _ s)
  · exact .same (State.maskChange_ranks _ _ s)
  · exact State.applyTracker_keepsOrder _ s
  · exact .same (State.raise_ranks _ _ s)

theorem execRelease_keepsOrder {s t : State} (h : execRelease s = .next t) : s.KeepsOrder t := by
  unfold execRelease at h
  split at h
  · next i e rest hi hh =>
    split at h
    · cases h
      have taken : s.KeepsOrder (s.takeHead e.slot rest) :=
        .thin (by rw [hh]; exact List.sublist_cons_self e rest) (.refl _) (Nat.le_refl _)
      exact .to (.trans (taken.to (State.releaseReport_ranks i e _)) (State.dispatch_keepsOrder i e _)) (by simp)
    · cases h; exact .refl s
  · cases h; exact .refl s

theorem execPendingOnWrite_keepsOrder {s t : State} (h : execPendingOnWrite s = .next t) : s.KeepsOrder t := by
  unfold execPendingOnWrite at h
  split at h
  · split at h <;> cases h
    · exact .same (State.pump_ranks _)
    · exact .refl s
  · cases h; exact .refl s

theorem execSweepWrite_keepsOrder {s t : State} (h : execSweepWrite s = .next t) : s.KeepsOrder t := by
  unfold execSweepWrite at h
  split at h
  · split at h <;> cases h
    · exact .same (State.pump_ranks _)
    · exact .refl s
  · cases h; exact .refl s

theorem State.takeSweepEnd_keepsOrder (w : Sweep) (s : State) : s.KeepsOrder (s.takeSweepEnd w) := by
  have loader : ∀ t : State, t.KeepsOrder t.loaderTakesSweepEnd := fun t => by
    unfold State.loaderTakesSweepEnd; split
    · exact .same t.enterConfigured_ranks
    · exact .refl t
  have tracker : ∀ t : State, t.KeepsOrder t.trackerTakesSweepEnd := fun t => by
    unfold State.trackerTakesSweepEnd; split
    · exact State.changeState_keepsOrder _ _ t
    · exact .refl t
  unfold State.takeSweepEnd
  dsimp only; split
  · exact .trans (.from (loader { s with chest := s.chest.endSweep w }) rfl) (tracker _)
  · exact .same rfl

theorem execSweepEnd_keepsOrder {s t : State} (h : execSweepEnd s = .next t) : s.KeepsOrder t := by
  unfold execSweepEnd at h
  split at h <;> cases h
  · exact .refl s
  · refine .to ?_ (State.pump_ranks _)
    split
    · unfold State.endOff
      dsimp only; split
      · exact s.finishRun_keepsOrder
      · exact s.finishRun_keepsOrder.trans (State.takeSweepEnd_keepsOrder _ _)
    · exact State.takeSweepEnd_keepsOrder _ s

/-! ### The remaining rows -/

theorem execReset_keepsOrder {s t : State} (h : execReset s = .next t) : s.KeepsOrder t := by
  cases h
  refine .to (.emptied (t := State.loadStart { State.reset with mem := s.mem, pending := s.pending }) ?_ ?_)
    (State.pump_ranks _) <;> rw [State.loadStart_eq]

theorem execReportTaken_keepsOrder (b : Block) {s t : State} (h : execReportTaken b s = .next t) : s.KeepsOrder t := by
  unfold execReportTaken at h
  dsimp only at h
  split at h
  · cases h; exact .refl s
  · split at h <;> cases h
    · exact .refl s
    · exact .same (s.reportsFor_ranks b)

theorem execRecordWriteBegin_keepsOrder {s t : State} (h : execRecordWriteBegin s = .next t) : s.KeepsOrder t := by
  unfold execRecordWriteBegin at h
  split at h <;> cases h
  · exact .refl s
  · exact .same (State.pump_ranks _)

/-- A row that takes effect on a condition, or changes nothing. -/
theorem stage_keepsOrder {s t u : State} {p : Prop} [Decidable p] (hu : s.KeepsOrder u)
    (h : (if p then .next u else .next s : Answer) = .next t) : s.KeepsOrder t := by
  split at h <;> cases h
  · exact hu
  · exact .refl s

theorem execRefreshBegin_keepsOrder {s t : State} (h : execRefreshBegin s = .next t) : s.KeepsOrder t := by
  unfold execRefreshBegin at h
  split at h
  · cases h; exact .refl s
  · next i _ => exact stage_keepsOrder (.same (s.beginRefresh i).pump_ranks) h

/-- Every command keeps the ordered collections in order. -/
theorem exec_keepsOrder (c : Instr) {s t : State} (h : exec c s = .next t) : s.KeepsOrder t := by
  have access : ∀ a, exec c s = .next (s.access a) → s.KeepsOrder t := fun a ha => by
    rw [ha] at h; cases h; exact State.access_keepsOrder a s
  have completed : (exec c s = .next s.portDone ∨ exec c s = .next s) → s.KeepsOrder t := fun hd => by
    rcases hd with hd | hd <;> rw [hd] at h <;> cases h
    · exact s.portDone_keepsOrder
    · exact .refl s
  have pumped : ∀ u : State, s.KeepsOrder u → s.KeepsOrder u.pump := fun u hu => hu.to u.pump_ranks
  cases c with
  | reset => exact execReset_keepsOrder h
  | fetchReadDone => exact completed (by simp only [exec, execFetchReadDone]; split <;> simp)
  | pickupReadDone => exact completed (by simp only [exec, execPickupReadDone]; split <;> simp)
  | anchorReadDone => exact completed (by simp only [exec, execAnchorReadDone]; split <;> simp)
  | chestWriteDone => exact completed (by simp only [exec, execChestWriteDone]; split <;> simp)
  | reportWordDone => exact completed (by simp only [exec, execReportWordDone]; split <;> simp)
  | portAccessDone => exact completed (.inl rfl)
  | writeBackGrant => cases h; exact .same s.grantWriteBack_ranks
  | frameStart x w o =>
    cases h
    refine pumped _ (.trans ?_ (State.frameBlocks_keepsOrder x w o _))
    exact (s.finishFrame_keepsOrder.to rfl).to (State.frameRefresh_ranks _)
  | repeatGapDue => cases h; exact .same s.markDue_ranks
  | pendingOnWrite => exact execPendingOnWrite_keepsOrder h
  | waitExpiry => cases h; exact pumped _ s.expireWait_keepsOrder
  | windowClose => cases h; exact pumped _ s.closeWindow_keepsOrder
  | staleWaitClearAnswer => cases h; exact pumped _ s.takeClearAnswer_keepsOrder
  | cancelAssert => exact stage_keepsOrder (pumped _ s.runCancelAssert_keepsOrder) h
  | cancelRelease => exact stage_keepsOrder (pumped _ s.runCancelRelease_keepsOrder) h
  | windDrop => exact stage_keepsOrder (pumped _ s.runDrop_keepsOrder) h
  | windConfirmed => exact stage_keepsOrder (pumped _ s.runConfirm_keepsOrder) h
  | windLimit => exact stage_keepsOrder (pumped _ s.runLimit_keepsOrder) h
  | holdExpiry => exact stage_keepsOrder (u := s.runHold) (.same rfl) h
  | slotEvent k b =>
    cases h
    exact pumped _ ((State.applyPickup_keepsOrder _ _ _).trans (State.applyPickup_keepsOrder _ _ _))
  | timeout k => cases h; exact State.applyPickup_keepsOrder _ _ _
  | release => exact execRelease_keepsOrder h
  | sweepWrite => exact execSweepWrite_keepsOrder h
  | sweepEnd => exact execSweepEnd_keepsOrder h
  | reportTaken b => exact execReportTaken_keepsOrder b h
  | recordWriteBegin => exact execRecordWriteBegin_keepsOrder h
  | refreshBegin => exact execRefreshBegin_keepsOrder h
  | scoreCommit | emptyCommit | scoreEdit | chestWrite | chestRead | logStatusWrite | stopMaskWrite | pickupCommit
  | runBlockWrite | commandNone | start | stop | resume | commandUnknown | consumerIndexWrite | anchorCommit
  | otherWrite => exact access _ rfl

theorem step_keepsOrder {s t : State} (h : step s = .next t) : s.KeepsOrder t := by
  unfold step at h
  split at h
  · cases h; exact .refl s
  · next c rest _ => exact (exec_keepsOrder (s := { s with pending := rest }) c h).from rfl

end Sys2Proof.Machine

open Sys2Proof Sys2Proof.Machine

/-- Settles O8: a placed entry takes the next admission order, so it is comparable with every entry that stands; all
else that a step does to the two collections is to take entries out of them or to empty them. -/
theorem stepKeepsCollectionsOrdered : Obligations.StepKeepsCollectionsOrdered := by
  intro s t hs hst
  exact t.collectionsOrdered_iff.2 (step_keepsOrder hst (s.collectionsOrdered_iff.1 hs))
end

section
/-! An accepted START at every block (R33, R111, R115, R129, R137, R138, R144). -/

namespace Sys2Proof.Machine

theorem RunControl.startStamp_eq (r : RunControl) : r.startStamp = r.stampHigh.toNat * 65536 + r.stampLow.toNat := rfl

/-- A START that passes the five tests of R137 is not refused. -/
theorem RunControl.startRefusal_none {r : RunControl} {config : ConfigState} {i : Installed} (h1 : r.announced = .idle)
    (h2 : config = .configured) (h3 : r.cancelHeld = false) (h4 : r.startStamp ≤ 2147483647)
    (h5 : i.tmin ≤ r.nominal.toNat) (h6 : r.nominal.toNat ≤ i.tmax) : r.startRefusal config i = none := by
  have inRange : ¬ Config.greatestStamp < r.startStamp := Nat.not_lt.2 h4
  have inTempo : ¬ (r.nominal.toNat < i.tmin ∨ i.tmax < r.nominal.toNat) := by omega
  simp [RunControl.startRefusal, h1, h2, h3, inRange, inTempo]

/-- The numbers of the START before come first, if they are on their way (R138; log entry 30). -/
theorem State.bringCounts_late {s : State} {i : Installed} {late : List Raised} (hi : s.loader.installed = some i)
    (hnone : s.run.startCounts = none → late = [])
    (hsome : ∀ h c, s.run.startCounts = some (h, c) →
      late = [s.reported .run (.command (.written 1) .accepted none .idle h c)]) :
    s.bringCounts = { s with run := { s.run with startCounts := none }, raised := s.raised ++ late } := by
  cases hc : s.run.startCounts with
  | none =>
    rw [State.bringCounts_none hc, hnone hc, List.append_nil, ← hc]
  | some x =>
    obtain ⟨h, c⟩ := x
    rw [State.bringCounts_some hc hi, hsome h c hc]

/-- The run controller as WINDING is entered: WINDREQ is high, the limit counter runs from 0 and the hold timer is
stopped (R138, R144, R145, R147). -/
theorem RunControl.announce_winding (windHold : Nat) (r : RunControl) : r.announce windHold .winding =
    { r with
      announced := .winding, windReq := true, limit := 0, limitRunning := true, holdRunning := false,
      readyReported := false, wind := if r.windReq then r.wind else .unconfirmed } := by
  cases hr : r.windReq <;> simp [RunControl.announce, RunControl.raiseRequest, hr]

theorem Matcher.announce_winding (old : TrackerState) (m : Matcher) :
    m.announce old .winding = { m with announced := .winding, expiryDue := false } := by
  simp [Matcher.announce]

/-- Entry into WINDING at every block (R115). -/
theorem State.changeState_winding {s : State} {i : Installed} (cause : StateCause)
    (hi : s.loader.installed = some i) : s.changeState .winding cause =
    { s with
      tracker := { s.tracker with state := .winding },
      matcher := { s.matcher with announced := .winding, expiryDue := false },
      fuser := { window := none, running := false },
      run := { s.run with
        announced := .winding, windReq := true, limit := 0, limitRunning := true, holdRunning := false,
        readyReported := false, wind := if s.run.windReq then s.run.wind else .unconfirmed },
      loader := { s.loader with announced := .winding },
      report := { s.report with refreshDue := true },
      raised := s.raised ++ [s.reported .tracker (.state s.tracker.state .winding cause)] } := by
  show s.announce .winding cause = _
  rw [State.announce_installed _ _ hi, RunControl.announce_winding, Matcher.announce_winding]
  rfl

/-- The entries and cues below the start stamp leave, and their slots become FREE (R16, R33, R111). -/
theorem State.dropBelow_eq (stamp : Nat) (s : State) : s.dropBelow stamp =
    { s with
      release := { s.release with hold := s.release.hold.filter (fun e => stamp ≤ e.stamp) },
      matcher := { s.matcher with
        cues := s.matcher.cues.filter (fun e => stamp ≤ e.stamp), capture := 0, miss := 0, timer := 0 },
      tracker := { s.tracker with
        waitStamp := leastWait (s.matcher.cues.filter (fun e => stamp ≤ e.stamp)) },
      admission := { s.admission with slots :=
        (((s.release.hold.filter (fun e => e.stamp < stamp)).map (fun e => e.slot)
          ++ (s.matcher.cues.filter (fun e => e.stamp < stamp)).map (fun e => e.slot)).foldl
            (fun m n => Table.set .free m n .free) s.admission.slots) } } := by
  unfold State.dropBelow
  simp only [State.freeSlots_fold, List.foldl_append]
  rfl

/-- An accepted START (R129, R138). -/
theorem State.acceptStart_eq {s : State} {i : Installed} {stamp : Nat} {late : List Raised}
    (hi : s.loader.installed = some i) (ht : s.tracker.state = .idle) (hs : s.run.startStamp = stamp)
    (hb : s.bringCounts = { s with run := { s.run with startCounts := none }, raised := s.raised ++ late }) :
    s.acceptStart =
    { s with
      tracker := { s.tracker with
        state := .winding, position := stamp * 65536, tempo := s.run.nominal.toNat, lag := 0, remainder := 0,
        resume := false, trail := List.replicate 512 stamp,
        waitStamp := leastWait (s.matcher.cues.filter (fun e => stamp ≤ e.stamp)) },
      run := { s.run with
        announced := .winding, windReq := true, limit := 0, limitRunning := true, holdRunning := false,
        readyReported := false, wind := if s.run.windReq then s.run.wind else .unconfirmed,
        startCounts := some ((s.release.hold.filter (fun e => e.stamp < stamp)).length,
          (s.matcher.cues.filter (fun e => e.stamp < stamp)).length) },
      chest := { s.chest.requestSweep .revoice Divisions.all with protectSeen := false },
      release := { s.release with hold := s.release.hold.filter (fun e => stamp ≤ e.stamp) },
      matcher := { s.matcher with
        cues := s.matcher.cues.filter (fun e => stamp ≤ e.stamp), capture := 0, miss := 0, timer := 0,
        announced := .winding, expiryDue := false },
      fuser := { window := none, running := false },
      loader := { s.loader with announced := .winding },
      report := { s.report with refreshDue := true },
      admission := { s.admission with slots :=
        (((s.release.hold.filter (fun e => e.stamp < stamp)).map (fun e => e.slot)
          ++ (s.matcher.cues.filter (fun e => e.stamp < stamp)).map (fun e => e.slot)).foldl
            (fun m n => Table.set .free m n .free) s.admission.slots) },
      raised := s.raised ++ late ++
        [{ block := .tracker,
           record := { report := .state .idle .winding .start, frame := s.link.frame, position := stamp } }] } := by
  have integer : stamp * Config.unitsPerSu / Config.unitsPerSu = stamp := Nat.mul_div_cancel _ (by decide)
  have dropped : (s.matcher.startDropped stamp).length = (s.matcher.cues.filter (fun e => e.stamp < stamp)).length :=
    List.length_map _
  unfold State.acceptStart
  simp only [hs, hb, State.belowStart, dropped]
  rw [State.changeState_winding (i := i) _ (by exact hi), State.requestSweep_revoice, State.dropBelow_eq]
  simp only [Tracker.start, ht, State.reported, Tracker.integer, integer]
  rfl

end Sys2Proof.Machine

open Sys2Proof Sys2Proof.Machine

/-- Settles O20: the five tests are passed, so the write of word 75 comes to the accepted START. -/
theorem startAccepted : Obligations.StartAccepted := by
  intro i stamp late s hf hi hd ht ha hc hh hstamp hmax hmin htop hlate
  have stamped : s.run.startStamp = stamp := s.run.startStamp_eq.trans hstamp.symm
  have passed : s.run.startRefusal s.loader.config i = none :=
    RunControl.startRefusal_none ha hc hh (stamped ▸ hmax) hmin htop
  have taken : (s.store 75 1).takeStart i = (s.store 75 1).acceptStart := by
    unfold State.takeStart
    rw [show (s.store 75 1).run.startRefusal (s.store 75 1).loader.config i = none from passed]
  have counts : (s.store 75 1).bringCounts = { s.store 75 1 with
      run := { s.run with startCounts := none }, raised := s.raised ++ late } := by
    refine State.bringCounts_late (i := i) hi (fun hn => ?_) fun h c hsome => ?_
    · rw [hlate, show s.run.startCounts = none from hn]
    · rw [hlate, show s.run.startCounts = some (h, c) from hsome]; rfl
  refine wrote (c := .start) rfl hf (State.commandWrite_free s 1 i hf hi hd (by decide)) ?_ rfl
  exact taken.trans (State.acceptStart_eq (i := i) hi ht stamped counts)
end

section
/-! The report writer takes a block's oldest report (R165, R168), and the numbers of a START as they come (R138). -/

namespace Sys2Proof.Machine

/-- While the block's oldest report stands, the numbers of a START are not asked for (R138). -/
theorem State.reportsFor_standing {b : Block} {s : State} {x : List Raised × Raised × List Raised}
    (h : splitRaised b s.raised = some x) : s.reportsFor b = s := by
  refine if_neg ?_
  rintro ⟨rfl, hn⟩
  simp [h] at hn

/-- With no report of the run controller standing, the numbers of a START come when its next report is asked for
(R138; log entry 30). -/
theorem State.reportsFor_run {s : State} (h : ∀ x ∈ s.raised, x.block ≠ .run) : s.reportsFor .run = s.bringCounts :=
  if_pos ⟨rfl, by rw [splitRaised_none h]; rfl⟩

/-- A block with no report has none taken, when no numbers come either (log entry 1). -/
theorem State.reportsFor_silent {b : Block} {s : State} (h : b = .run → s.run.startCounts = none) :
    s.reportsFor b = s := by
  unfold State.reportsFor
  split
  · next hb => exact State.bringCounts_none (h hb.1)
  · rfl

/-- A report that a rule orders behind one that stands is not taken (R31, R108, R138). -/
theorem waits_iff (before : List Raised) (r : Raised) :
    before.any (fun e => e.record.report.mustPrecede r.record.report) = true
      ↔ ∃ x ∈ before, x.record.report.comesBefore r.record.report := by
  simp only [List.any_eq_true, Report.mustPrecede_iff]

/-- The report is appended to a queue with room (R165). -/
theorem ReportWriter.take_room {w : ReportWriter} (r : Record) (h : w.queue.length < 16) :
    w.take r = { w with queue := w.queue ++ [r] } :=
  if_neg (Nat.not_le.2 h)

/-- A full queue leaves the report unqueued, and it is counted (R168). -/
theorem ReportWriter.take_full {w : ReportWriter} (r : Record) (h : 16 ≤ w.queue.length) :
    w.take r = { w with lostCount := min 65535 (w.lostCount + 1), lostTotal := min 65535 (w.lostTotal + 1) } :=
  if_pos h

/-- The oldest report of the block is taken, unless one raised before it comes first (R165; log entry 13). -/
theorem exec_reportTaken {b : Block} {s u : State} {before rest : List Raised} {r : Raised} (hu : s.reportsFor b = u)
    (hr : splitRaised b u.raised = some (before, r, rest)) : exec (.reportTaken b) s =
    if before.any (fun e => e.record.report.mustPrecede r.record.report) then .next s
    else .next { u with raised := before ++ rest, report := u.report.take r.record } := by
  show execReportTaken b s = _
  unfold execReportTaken
  simp only [hu, hr]

theorem exec_reportTaken_free {b : Block} {s u : State} {before rest : List Raised} {r : Raised}
    (hu : s.reportsFor b = u) (hr : splitRaised b u.raised = some (before, r, rest))
    (h : ∀ x ∈ before, ¬ x.record.report.comesBefore r.record.report) : exec (.reportTaken b) s =
    .next { u with raised := before ++ rest, report := u.report.take r.record } := by
  rw [exec_reportTaken hu hr, if_neg]
  rw [waits_iff]
  exact fun ⟨x, hx, hc⟩ => h x hx hc

theorem exec_reportTaken_waits {b : Block} {s u : State} {before rest : List Raised} {r : Raised}
    (hu : s.reportsFor b = u) (hr : splitRaised b u.raised = some (before, r, rest))
    (h : ∃ x ∈ before, x.record.report.comesBefore r.record.report) : exec (.reportTaken b) s = .next s := by
  rw [exec_reportTaken hu hr, if_pos ((waits_iff before r).2 h)]

theorem exec_reportTaken_none {b : Block} {s : State} (hu : s.reportsFor b = s) (h : ∀ x ∈ s.raised, x.block ≠ b) :
    exec (.reportTaken b) s = .next s := by
  show execReportTaken b s = _
  unfold execReportTaken
  simp only [hu, splitRaised_none h]

/-- Ahead of the COMMAND of an accepted START comes the STATE of that START, or of a STOP or CANCEL since, and no other
report (R138). -/
theorem Report.comesBefore_startCommand {e : Report} {reason : Option CommandReason} {tracker : TrackerState}
    {h c : Nat} : e.comesBefore (.command (.written 1) .accepted reason tracker h c) ↔
    ∃ old new cause, e = .state old new cause ∧ (cause = .start ∨ cause = .stop ∨ cause = .cancel) := by
  simp [Report.comesBefore]

end Sys2Proof.Machine

open Sys2Proof Sys2Proof.Machine

/-- Settles O58: the raised reports are split at the block's oldest, or the COMMAND that a START's numbers bring is the
run controller's only one. -/
theorem reportTakenOrLost : Obligations.ReportTakenOrLost := by
  refine ⟨fun b before r rest s hraised hbefore hr => ?_,
    fun b s hb hc => exec_reportTaken_none (State.reportsFor_silent hc) hb, fun h c s hc hi hb => ?_⟩
  · have split : splitRaised b s.raised = some (before, r, rest) := hraised ▸ splitRaised_oldest hbefore hr
    have standing := State.reportsFor_standing split
    refine ⟨fun hfree hq => ?_, fun hfree hq => ?_, exec_reportTaken_waits standing split⟩
    · rw [exec_reportTaken_free standing split hfree, ReportWriter.take_room _ hq]
    · rw [exec_reportTaken_free standing split hfree, ReportWriter.take_full _ hq]
  · obtain ⟨i, hi⟩ := Option.ne_none_iff_exists'.1 hi
    have comes := (State.reportsFor_run hb).trans (State.bringCounts_some hc hi)
    have split := splitRaised_oldest (rest := []) hb
      (rfl : (s.reported .run (.command (.written 1) .accepted none .idle h c)).block = .run)
    refine ⟨fun hfree hq => ?_, fun ⟨x, hx, old, new, cause, hstate, hcause⟩ => ?_⟩
    · rw [exec_reportTaken_free comes split fun x hx hcomes => ?_, ReportWriter.take_room _ hq, List.append_nil]
      obtain ⟨old, new, cause, hstate, hcause⟩ := Report.comesBefore_startCommand.1 hcomes
      have := hfree x hx old new cause hstate
      tauto
    · exact exec_reportTaken_waits comes split
        ⟨x, hx, Report.comesBefore_startCommand.2 ⟨old, new, cause, hstate, hcause⟩⟩
end

section
/-! When the head of the hold queue is due, finds its space, or waits for it (R24 to R26, R46). -/

namespace Sys2Proof.Machine

/-- An entry is due once the position has reached its stamp, and no wait stamp stands at or below it (R24). -/
theorem State.due_iff {s : State} {e : HoldEntry} : s.due e = true ↔
    e.stamp * 65536 ≤ s.tracker.position ∧ ∀ w, s.matcher.waitStamp = some w → e.stamp < w := by
  have reached : s.tracker.reached e.stamp = true ↔ e.stamp * 65536 ≤ s.tracker.position := decide_eq_true_iff
  unfold State.due
  cases s.matcher.waitStamp <;> simp [reached]

theorem HoldEntry.isNote_iff {e : HoldEntry} : e.isNote = true ↔ e.kind = .noteOn ∨ e.kind = .noteOff := by
  simp [HoldEntry.isNote]

/-- Three entries of the FIFO are free (R26). -/
theorem State.noteRoom_iff {s : State} : s.noteRoom = true ↔ s.fifoCount ≤ 13 :=
  decide_eq_true_iff.trans (Nat.add_le_add_iff_right (n := 3))

/-- The head may be released: it is due in a running state, and a note finds its space (R25, R26). -/
theorem State.releasable_iff {s : State} {e : HoldEntry} : s.releasable e = true ↔
    s.tracker.state.running = true ∧ s.due e = true ∧ (e.isNote = true → s.fifoCount ≤ 13) := by
  rw [← State.noteRoom_iff]
  simp only [State.releasable, Bool.and_eq_true, Bool.or_eq_true, Bool.not_eq_true', and_assoc]
  cases e.isNote <;> simp

/-- A due note at the head of the queue, short of space now or since it first was, holds the space back (R26, R46). -/
theorem State.releaseWaiting_note {s : State} {e : HoldEntry} {rest : List HoldEntry}
    (hh : s.release.hold = e :: rest) (hk : e.kind = .noteOn ∨ e.kind = .noteOff)
    (hr : s.tracker.state.running = true) (hd : s.due e = true) (hw : 14 ≤ s.fifoCount ∨ s.spaceWait = some e.order) :
    s.releaseWaiting = true := by
  have short : (!s.noteRoom || s.spaceWait == some e.order) = true := by
    rw [Bool.or_eq_true, Bool.not_eq_true', beq_iff_eq, ← Bool.not_eq_true, State.noteRoom_iff]
    exact hw.imp_left Nat.not_le.2
  simp [State.releaseWaiting, hh, hr, hd, HoldEntry.isNote_iff.2 hk, short]

/-- The FIFO takes a write of the sweep or of a due key: it has a free entry, and the release engine does not wait for
space (R43, R46). -/
theorem State.fifoOpen_iff {s : State} : s.fifoOpen = true ↔ s.fifoCount < 16 ∧ s.releaseWaiting = false := by
  rw [State.fifoOpen, Bool.and_eq_true, decide_eq_true_iff, Bool.not_eq_true']
  rfl

end Sys2Proof.Machine
end

section
/-! The write of a sweep's next key, and the walk of the sweep (R46, R48 to R51). -/

namespace Sys2Proof.Machine

/-- Within a division the sweep goes on to the next key (R48). -/
theorem Chest.sweepAdvance_key {c : Chest} {w : Sweep} (h : w.key + 1 < compass w.division) :
    c.sweepAdvance w = { w with key := w.key + 1 } :=
  if_pos h

/-- After the last key of the pedal there is none left (R48). -/
theorem Chest.sweepAdvance_last {c : Chest} {w : Sweep} (hk : compass w.division ≤ w.key + 1) (hd : w.division = 3) :
    c.sweepAdvance w = { w with passed := true } :=
  Chest.sweepAdvance_passed hk fun e he => absurd he (hd ▸ not_lt.2 (Fin.le_last e))

/-- A REVOICE writes the stop mask to a held key that is not pending-on; every other write of a sweep is off (R49 to
R51). -/
theorem Chest.sweepWrite_eq (i : Installed) (c : Chest) {w : Sweep} {on : Bool}
    (hon : on = (w.kind == .revoice && (c.sound w.division w.key).holders != 0
      && !(c.sound w.division w.key).pendingOn)) : c.sweepWrite i w =
    { c with
      sweep := some (c.sweepAdvance w),
      fifo := c.fifo ++
        [{ address := i.chestBase + 64 * w.division.val + w.key,
           stored :=
            (let logical := if on then (c.division w.division).stopMask else 0
             if (c.division w.division).reverse then ~~~logical else logical),
           on := on, sweep := true }] } := by
  have revoiced : (w.kind = .revoice ∧ c.revoicesOn w.division w.key = true) ↔ on = true := by
    rw [hon, Bool.and_assoc, Bool.and_eq_true, beq_iff_eq]
    rfl
  unfold Chest.sweepWrite
  simp only [revoiced]
  cases on <;> rfl

/-- With space for it, and nothing ahead of it that wants the space, the sweep's next write is queued (R46, R48). -/
theorem exec_sweepWrite_open {s : State} {i : Installed} {w : Sweep} (hi : s.loader.installed = some i)
    (hs : s.chest.sweep = some w) (hp : w.passed = false) (hd : s.chest.firstDue = none) (hf : s.fifoOpen = true) :
    exec .sweepWrite s = .next (State.pump { s with chest := s.chest.sweepWrite i w }) := by
  show execSweepWrite s = _
  unfold execSweepWrite
  simp [hi, hs, hp, hd, hf]

/-- Behind a due pending-on entry, or without an open FIFO, the sweep waits (R46). -/
theorem exec_sweepWrite_waits {s : State} (h : s.chest.firstDue ≠ none ∨ s.fifoOpen = false) :
    exec .sweepWrite s = .next s := by
  show execSweepWrite s = _
  unfold execSweepWrite
  split
  · refine if_neg ?_
    rcases h with h | h <;> simp [h]
  · rfl

end Sys2Proof.Machine

open Sys2Proof Sys2Proof.Machine

/-- Settles O56: the write by the sweep's kind, the walk by the divisions it covers, and what holds the write back. -/
theorem sweepWriteQueued : Obligations.SweepWriteQueued := by
  intro i w on s hw hi hs hp hon
  refine ⟨fun hd hq hr => ?_, Chest.sweepAdvance_key, fun hk covered hcov => ?_, Chest.sweepAdvance_last, fun h => ?_,
    fun e rest hh hkind hrun hreach hstamp hshort => ?_⟩
  · exact pumped (exec_sweepWrite_open hi hs hp hd (State.fifoOpen_iff.2 ⟨hq, hr⟩))
      (by rw [Chest.sweepWrite_eq i s.chest hon]) hw
  · have covers : ∀ d, s.chest.sweepCovers w.kind w.set d = true ↔ covered d := fun d => by
      rw [hcov]; exact s.chest.sweepCovers_iff w d
    refine ⟨fun d hd hc hl => Chest.sweepAdvance_division hk hd ((covers d).2 hc) fun x h1 h2 => ?_,
      fun hl => Chest.sweepAdvance_passed hk fun x h1 => ?_⟩
    · exact Bool.eq_false_iff.2 (mt (covers x).1 (hl x h1 h2))
    · exact Bool.eq_false_iff.2 (mt (covers x).1 (hl x h1))
  · refine exec_sweepWrite_waits (h.imp_right fun h => ?_)
    rw [Bool.eq_false_iff, ne_eq, State.fifoOpen_iff]
    rintro ⟨hroom, hfree⟩
    rcases h with h | h
    · omega
    · simp [hfree] at h
  · have waiting := State.releaseWaiting_note hh hkind hrun (State.due_iff.2 ⟨hreach, hstamp⟩) hshort
    refine ⟨exec_sweepWrite_waits (.inr ?_), by simp [State.waitsFor, waiting, hh]⟩
    simp [State.fifoOpen, waiting]
end

section
/-! A RELEASE of a due head: the report, the dispatch by kind, and starvation (R25 to R32). -/

namespace Sys2Proof.Machine

/-- The head is out of the queue and its slot FREE; a dispatch may change the chest, the pending write-backs and the
tempo, and raise reports (R16, R25 to R30). -/
def State.headReleased (s : State) (e : HoldEntry) (rest : List HoldEntry) (c : Chest) (l : List WriteBack)
    (tempo : Nat) (reports : List Raised) : State :=
  { s with
    release := { s.release with hold := rest },
    admission := { s.admission with slots := Table.set .free s.admission.slots e.slot .free },
    chest := c,
    path := { s.path with writeBacks := l },
    tracker := { s.tracker with tempo := tempo },
    raised := s.raised ++ reports }

/-- The head as its dispatch finds it. -/
def State.headTaken (s : State) (e : HoldEntry) (rest : List HoldEntry) (history : List Raised) : State :=
  s.headReleased e rest s.chest s.path.writeBacks s.tracker.tempo history

section
variable {s : State} {i : Installed} {e : HoldEntry} {rest : List HoldEntry} {c : Chest} {l : List WriteBack}
  {tempo : Nat} {history reports : List Raised}

/-- Reports raised behind the release of the head carry the frame and the position of the event (R165). -/
theorem State.headReleased_raiseAll (b : Block) (q : List Report) (hi : s.loader.installed = some i) :
    State.raiseAll b q (s.headReleased e rest c l tempo reports) =
    s.headReleased e rest c l tempo (reports ++ q.map (s.reported b)) := by
  rw [State.raiseAll_installed (i := i) _ _ (by exact hi)]
  simp only [State.headReleased, List.append_assoc]
  rfl

theorem State.headReleased_raise (b : Block) (r : Report) (hi : s.loader.installed = some i) :
    (s.headReleased e rest c l tempo reports).raise b r =
    s.headReleased e rest c l tempo (reports ++ [s.reported b r]) :=
  State.headReleased_raiseAll b [r] hi

/-- RELEASE is raised first, if the option is set (R31). -/
theorem State.takeHead_releaseReport (hi : s.loader.installed = some i)
    (hh : history = if i.releaseHistory then
      [s.reported .release (.release e.slot e.kind e.division e.key (s.tracker.position / 65536 - e.stamp))] else []) :
    (s.takeHead e.slot rest).releaseReport i e = s.headTaken e rest history := by
  subst hh
  unfold State.releaseReport State.headTaken State.headReleased
  split
  · rw [State.raise_installed (i := i) _ _ (by exact hi)]
    rfl
  · rw [List.append_nil]
    rfl

end

/-- A queue left empty is starved, with STARVED behind the reports of the dispatch (R32; log entry 14). -/
theorem State.headReleased_noteEmptied {s : State} {i : Installed} {e : HoldEntry} {rest : List HoldEntry} {c : Chest}
    {l : List WriteBack} {tempo : Nat} {reports starved : List Raised} (hi : s.loader.installed = some i)
    (hr : s.tracker.state.running = true)
    (hs : starved = if rest = [] ∧ s.release.starved = false then
      [s.reported .release (.starved .released (some e.slot))] else []) :
    (s.headReleased e rest c l tempo reports).noteEmptied .released (some e.slot) =
    { s.headReleased e rest c l tempo (reports ++ starved) with
      release := { hold := rest, starved := s.release.starved || rest.isEmpty } } := by
  rw [State.noteEmptied_running (i := i) _ _ (by exact hr) (by exact hi), hs]
  simp only [State.headReleased, List.append_assoc]
  rfl

/-- The effect of a RELEASE, by what its dispatch does (R25). -/
theorem released {s : State} {i : Installed} {e : HoldEntry} {rest : List HoldEntry} {c : Chest} {l : List WriteBack}
    {tempo : Nat} {history reports starved : List Raised}
    (hw : s.path.waiting = none) (hi : s.loader.installed = some i) (hh : s.release.hold = e :: rest)
    (hr : s.tracker.state.running = true) (hd : s.due e = true) (hq : e.isNote = true → s.fifoCount ≤ 13)
    (hhist : history = if i.releaseHistory then
      [s.reported .release (.release e.slot e.kind e.division e.key (s.tracker.position / 65536 - e.stamp))] else [])
    (hs : starved = if rest = [] ∧ s.release.starved = false then
      [s.reported .release (.starved .released (some e.slot))] else [])
    (hu : (s.headTaken e rest history).dispatch i e = s.headReleased e rest c l tempo (history ++ reports)) :
    ∃ t, exec .release s = .next t ∧ sameButTraffic
      { s with
        release := { hold := rest, starved := s.release.starved || rest.isEmpty },
        admission := { s.admission with slots := Table.set .free s.admission.slots e.slot .free },
        chest := c,
        path := { s.path with writeBacks := l },
        tracker := { s.tracker with tempo := tempo },
        raised := s.raised ++ history ++ (reports ++ starved) } t := by
  rw [List.append_assoc, ← List.append_assoc history]
  refine pumped ?_ (State.headReleased_noteEmptied hi hr hs) hw
  show execRelease s = _
  unfold execRelease
  simp only [hi, hh, if_pos (State.releasable_iff.2 ⟨hr, hd, hq⟩), State.takeHead_releaseReport hi hhist, hu]

/-! ### The dispatch of each kind (R27 to R30) -/

section
variable {s : State} {i : Installed} {e : HoldEntry} {rest : List HoldEntry} {history : List Raised}

theorem State.dispatch_mark (hi : s.loader.installed = some i) (hk : e.kind = .mark) :
    (s.headTaken e rest history).dispatch i e = s.headReleased e rest s.chest s.path.writeBacks s.tracker.tempo
      (history ++ [s.reported .release (.mark e.slot e.payload)]) := by
  unfold State.dispatch
  rw [hk]
  exact State.headReleased_raise _ _ hi

/-- A TEMPO sets the tempo, and the tracker reports it (R29, R124). -/
theorem State.dispatch_tempo (hi : s.loader.installed = some i) (hk : e.kind = .tempo) :
    (s.headTaken e rest history).dispatch i e = s.headReleased e rest s.chest s.path.writeBacks e.payload.toNat
      (history ++ [s.reported .tracker (.tempoSet e.slot e.payload.toNat s.tracker.tempo)]) := by
  unfold State.dispatch
  rw [hk]
  exact State.headReleased_raiseAll _ _ hi

/-- In a running state a mask change revoices an enabled division (R53). -/
theorem State.maskChange_running {s : State} (d : Division) (v : Word) (h : s.tracker.state.running = true) :
    s.maskChange d v = { s with
      chest :=
        if (s.chest.division d).enabled = true then (s.chest.setMask d v).requestSweep .revoice (Divisions.single d)
        else s.chest.setMask d v } := by
  unfold State.maskChange
  rw [h, Bool.and_true]
  by_cases hd : (s.chest.division d).enabled = true
  · simp only [if_pos hd, State.requestSweep_revoice]
  · simp only [if_neg hd]

/-- A REGISTRATION is a mask change, and its write-back is requested (R28, R54). -/
theorem State.dispatch_registration (hr : s.tracker.state.running = true) (hk : e.kind = .registration) :
    (s.headTaken e rest history).dispatch i e = s.headReleased e rest
      (if (s.chest.division e.division).enabled = true then
        (s.chest.setMask e.division e.payload).requestSweep .revoice (Divisions.single e.division)
      else s.chest.setMask e.division e.payload)
      (writeBackRequest e.division e.payload s.path.writeBacks) s.tracker.tempo (history ++ []) := by
  unfold State.dispatch State.registration
  rw [hk, List.append_nil]
  dsimp only
  rw [State.maskChange_running _ _ (by exact hr)]
  rfl

/-- A note is taken whole by the chest writer, whose reports follow (R27, R31). -/
theorem State.dispatch_note (hi : s.loader.installed = some i) (hk : e.kind = .noteOn ∨ e.kind = .noteOff) :
    (s.headTaken e rest history).dispatch i e = s.headReleased e rest
      (s.chest.noteAction i s.link.frame e.division e.key (e.kind == .noteOn)).1 s.path.writeBacks s.tracker.tempo
      (history ++
        (s.chest.noteAction i s.link.frame e.division e.key (e.kind == .noteOn)).2.map (s.reported .chest)) := by
  have taken : ∀ on, (s.headTaken e rest history).noteAction i e on = s.headReleased e rest
      (s.chest.noteAction i s.link.frame e.division e.key on).1 s.path.writeBacks s.tracker.tempo
      (history ++ (s.chest.noteAction i s.link.frame e.division e.key on).2.map (s.reported .chest)) :=
    fun on => State.headReleased_raiseAll _ _ hi
  unfold State.dispatch
  rcases hk with hk | hk
  · rw [hk]; exact taken true
  · rw [hk]; exact taken false

end

/-- A head that may not be released stays where it is (R24 to R26). -/
theorem exec_release_waits {s : State} {e : HoldEntry} {rest : List HoldEntry} (hh : s.release.hold = e :: rest)
    (h : s.releasable e = false) : exec .release s = .next s := by
  show execRelease s = _
  unfold execRelease
  rw [hh]
  split
  · next e' rest' _ heq =>
    cases heq
    exact if_neg (by simp [h])
  · rfl

end Sys2Proof.Machine

open Sys2Proof Sys2Proof.Machine

/-- Settles O52: the dispatch by the kind of the head. -/
theorem releaseDispatchesByKind : Obligations.ReleaseDispatchesByKind := by
  intro i e rest history starved s hw hi hh hr hreach hstamp hhist hstarved
  have hd := State.due_iff.2 ⟨hreach, hstamp⟩
  have plain : (e.kind ≠ .noteOn ∧ e.kind ≠ .noteOff) → e.isNote = true → s.fifoCount ≤ 13 := fun hk hn =>
    absurd (HoldEntry.isNote_iff.1 hn) (by tauto)
  refine ⟨fun hk => ?_, fun hk => ?_, fun hk => ?_⟩
  · exact released (reports := [_]) hw hi hh hr hd (plain (by simp [hk])) hhist hstarved (State.dispatch_mark hi hk)
  · exact released (reports := [_]) hw hi hh hr hd (plain (by simp [hk])) hhist hstarved (State.dispatch_tempo hi hk)
  · exact released (reports := []) hw hi hh hr hd (plain (by simp [hk])) hhist hstarved
      (State.dispatch_registration hr hk)
end

section
/-! The note action of a division without couplers, and a RELEASE of a note (R26, R27, R36, R39 to R42). -/

namespace Sys2Proof.Machine

/-- Without couplers a note action has its direct hold alone (R39). -/
theorem Chest.noteHolds_direct {c : Chest} {d : Division} {n k : Nat} (he : (c.division d).enabled = true)
    (ha : (c.division d).couplerA = none) (hb : (c.division d).couplerB = none)
    (hn : (n : Int) + (c.division d).transpose = k) (hk : k < compass d) :
    c.noteHolds d n = [{ division := d, key := k, coupled := false }] := by
  simp [Chest.noteHolds, Chest.coupledHold, holdAt, he, ha, hb, hn, hk]

theorem Chest.takeHolds_single (f : NoteHold → Chest → Chest × List Report) (h : NoteHold) (c : Chest) :
    Chest.takeHolds f [h] c = f h c := by
  simp [Chest.takeHolds]

/-- No sweep of any kind runs. -/
theorem Chest.sweeping_none {c : Chest} (kind : SweepKind) (h : c.sweep = none) : c.sweeping kind = false := by
  simp [Chest.sweeping, h]

/-- The repeat gap is past (R42). -/
theorem heldBack_past {gap : Nat} {now : Frame} {last : Option Frame}
    (h : ∀ f, last = some f → gap ≤ (now - f).toNat) : heldBack gap now last = false := by
  unfold heldBack
  split
  · rfl
  · next f => exact decide_eq_false (Nat.not_lt.2 (h f rfl))

/-- The on-hold of a silent key whose repeat gap is past: it is held once, and one on-write of the stop mask is queued
(R40, R42). -/
theorem Chest.holdOn_silent {c : Chest} {i : Installed} {now : Frame} {h : NoteHold} {last : Option Frame}
    (hs : c.sound h.division h.key = { holders := 0, pendingOn := false, due := false, lastOff := last })
    (hg : ∀ f, last = some f → i.repeatGap ≤ (now - f).toNat) (hw : c.sweep = none) : Chest.holdOn i now h c =
    ({ c with
      sounding := Table.set SoundEntry.quiet c.sounding (64 * h.division.val + h.key)
        { holders := 1, pendingOn := false, due := false, lastOff := last },
      fifo := c.fifo ++
        [{ address := i.chestBase + 64 * h.division.val + h.key,
           stored := if (c.division h.division).reverse then ~~~(c.division h.division).stopMask
             else (c.division h.division).stopMask,
           on := true, sweep := false }] }, []) := by
  have room : ¬ Config.holderLimit ≤ 0 := by decide
  unfold Chest.holdOn
  simp only [hs, room, if_false, ne_eq, not_true_eq_false, Chest.sweeping_none .mute hw, heldBack_past hg,
    Bool.false_eq_true]
  rfl

/-- The off-hold of a key held once: it is silent, the off-write's frame is noted, and one off-write of 0 is queued
(R41). -/
theorem Chest.holdOff_once {c : Chest} {i : Installed} {now : Frame} {n : Nat} {h : NoteHold} {last : Option Frame}
    (hs : c.sound h.division h.key = { holders := 1, pendingOn := false, due := false, lastOff := last })
    (hw : c.sweep = none) : Chest.holdOff i now n h c =
    ({ c with
      sounding := Table.set SoundEntry.quiet c.sounding (64 * h.division.val + h.key)
        { holders := 0, pendingOn := false, due := false, lastOff := some now },
      fifo := c.fifo ++
        [{ address := i.chestBase + 64 * h.division.val + h.key,
           stored := if (c.division h.division).reverse then 0xFFFF else 0,
           on := false, sweep := false }] }, []) := by
  have once : ¬ (2 ≤ 1) := by decide
  unfold Chest.holdOff
  simp only [hs, once, if_false, one_ne_zero, Chest.sweeping_none .mute hw, Bool.false_eq_true]
  rfl

end Sys2Proof.Machine

open Sys2Proof Sys2Proof.Machine

/-- Settles O53: a note that may not be released stays; else its note action is taken whole, which without couplers is
that of the direct hold. -/
theorem releaseOfNotes : Obligations.ReleaseOfNotes := by
  intro i e rest history starved reports s hw hi hh hk hhist hstarved hreports
  have noted : ∀ r : Chest × List Report, s.tracker.state.running = true →
      e.stamp * 65536 ≤ s.tracker.position → (∀ w, s.matcher.waitStamp = some w → e.stamp < w) →
      s.fifoCount ≤ 13 →
      r = s.chest.noteAction i s.link.frame e.division e.key (e.kind == .noteOn) →
      ∃ t, exec .release s = .next t ∧ sameButTraffic
        { s with
          release := { hold := rest, starved := s.release.starved || rest.isEmpty },
          admission := { s.admission with slots := Table.set .free s.admission.slots e.slot .free },
          chest := r.1,
          raised := s.raised ++ history ++ (r.2.map (s.reported .chest) ++ starved) } t := by
    rintro r hr hreach hstamp hroom rfl
    exact released hw hi hh hr (State.due_iff.2 ⟨hreach, hstamp⟩) (fun _ => hroom) hhist hstarved
      (State.dispatch_note hi hk)
  refine ⟨fun h => exec_release_waits hh ?_, fun r hr hreach hstamp hroom hact => ?_,
    fun key hr hreach hstamp hroom hen hA hB hkey hcomp hsweep => ?_⟩
  · rw [Bool.eq_false_iff, ne_eq, State.releasable_iff, State.due_iff]
    rintro ⟨hr, ⟨hreach, hstamp⟩, hroom⟩
    have hroom := hroom (HoldEntry.isNote_iff.2 hk)
    rcases h with h | h | h | ⟨w, hws, hle⟩
    · simp [h] at hr
    · omega
    · omega
    · exact absurd (hstamp w hws) (Nat.not_lt.2 hle)
  · rw [List.append_assoc (s.raised ++ history)]
    exact noted r hr hreach hstamp hroom hact
  · have direct := Chest.noteHolds_direct hen hA hB hkey hcomp
    subst hreports
    rw [← List.append_assoc]
    refine ⟨fun last hon hs hgap => noted (_, []) hr hreach hstamp hroom ?_,
      fun last hoff hs => noted (_, []) hr hreach hstamp hroom ?_⟩
    · simp only [hon, Chest.noteAction, direct, Chest.takeHolds_single, beq_self_eq_true, if_true]
      exact (Chest.holdOn_silent (h := .mk e.division key false) hs hgap hsweep).symm
    · simp only [hoff, Chest.noteAction, direct, Chest.takeHolds_single]
      exact (Chest.holdOff_once (h := .mk e.division key false) hs hsweep).symm
end

section
/-! WIND_CONFIRMED: the ready report, and the end of WINDING (R130, R145 to R147). -/

namespace Sys2Proof.Machine

/-! ### The run controller reports ready -/

/-- The run controller once it has reported ready: the wind is CONFIRMED, and the limit counter, which has risen at this
frame start, stops (R145 to R147). -/
def RunControl.ready (r : RunControl) : RunControl :=
  { r with
    stage := .done, wind := .confirmed, readyReported := true, limitRunning := false,
    limit := if r.limitRunning then min 65535 (r.limit + 1) else r.limit }

/-- The limit of R147 is not reached by a wind that is CONFIRMED. -/
theorem RunControl.limitStep_confirmed (windLimit : Nat) {r : RunControl} (h : r.wind = .confirmed) :
    r.limitStep windLimit = { r with limit := if r.limitRunning then min 65535 (r.limit + 1) else r.limit } := by
  unfold RunControl.limitStep
  by_cases hl : r.limitRunning = true
  · simp only [if_pos hl, h, ne_eq, not_true_eq_false, and_false, if_false]
  · simp only [if_neg hl]

theorem State.runAfterSettle_confirmed {s : State} (h : s.run.wind = .confirmed) (hs : s.run.stage = .done) :
    s.runAfterSettle = (State.reportReady { s with run := { s.run with
      limit := if s.run.limitRunning then min 65535 (s.run.limit + 1) else s.run.limit } }).runAfterLimit := by
  simp only [State.runAfterSettle, RunControl.limitStep_confirmed _ h, hs, reduceCtorEq, if_false]

theorem State.reportReady_due {s : State} {i : Installed} (hi : s.loader.installed = some i)
    (h : s.run.readyDue = true) : s.reportReady = State.leaveWinding { s with
      run := s.run.reportReady, raised := s.raised ++ [s.reported .run (.wind .ready)] } := by
  refine (if_pos h).trans ?_
  rw [State.raise_installed (i := i) _ _ (by exact hi)]
  rfl

/-- The wind is confirmed and not yet reported: WIND is raised, and the tracker leaves WINDING (R130, R145, R146). -/
theorem State.runConfirm_ready {s : State} {i : Installed} (hi : s.loader.installed = some i)
    (ha : s.run.announced = .winding) (hr : s.run.readyReported = false) : s.runConfirm =
    (State.leaveWinding { s with
      run := s.run.ready, raised := s.raised ++ [s.reported .run (.wind .ready)] }).runAfterLimit := by
  unfold State.runConfirm
  rw [State.runAfterSettle_confirmed (by rfl) (by rfl), State.reportReady_due (i := i) (by exact hi)]
  · rfl
  · simp [RunControl.readyDue, ha, hr]

theorem RunControl.holdStep_limit (r : RunControl) : r.holdStep.limit = r.limit := by
  unfold RunControl.holdStep
  split
  · split <;> rfl
  · rfl

/-- What the ready report leaves at the run controller, behind the hold timer's step (R144 to R147). -/
theorem RunControl.ready_holdStep {r q : RunControl} {new : TrackerState}
    (h : q = { r.ready with announced := new } ∨ q = r.ready) :
    q.holdStep.wind = .confirmed ∧ q.holdStep.readyReported = true ∧ q.holdStep.limitRunning = false
      ∧ q.holdStep.limit = if r.limitRunning then min 65535 (r.limit + 1) else r.limit := by
  obtain ⟨hlimit, hwind, -, -, hready, -, -⟩ := q.holdStep_keeps
  rw [hlimit, hwind, hready, RunControl.holdStep_limit]
  rcases h with rfl | rfl <;> exact ⟨rfl, rfl, rfl, rfl⟩

/-! ### The tracker leaves WINDING (R130) -/

theorem Tracker.waitStampStale_iff {t : Tracker} :
    t.waitStampStale = true ↔ ∃ w, t.waitStamp = some w ∧ w * 65536 < t.position := by
  unfold Tracker.waitStampStale
  cases t.waitStamp with
  | none => simp
  | some w =>
    rw [decide_eq_true_iff]
    exact ⟨fun h => ⟨w, rfl, h⟩, fun ⟨_, hw, h⟩ => Option.some.inj hw ▸ h⟩

theorem Matcher.announce_leading (m : Matcher) : m.announce .winding .leading =
    { m with announced := .leading, expiryDue := false, capture := 0, miss := 0 } := by
  simp [Matcher.announce]

/-- The tracker enters LEADING from WINDING: a resumed run is revoiced, and a run that begins with the hold queue empty
is starved (R32, R51, R130). -/
theorem State.changeState_leading {s : State} {i : Installed} (cause : StateCause)
    (hi : s.loader.installed = some i) (ht : s.tracker.state = .winding) : s.changeState .leading cause =
    { s with
      tracker := { s.tracker with
        state := .leading, returnState := none, resume := false, awaitingClear := false },
      matcher := { s.matcher with announced := .leading, expiryDue := false, capture := 0, miss := 0 },
      fuser := { s.fuser with running := true },
      run := { s.run with announced := .leading },
      loader := { s.loader with announced := .leading },
      report := { s.report with refreshDue := true },
      chest := if s.tracker.resume then s.chest.requestSweep .revoice Divisions.all else s.chest,
      release := { s.release with starved := s.release.starved || s.release.hold.isEmpty },
      raised := s.raised ++ [s.reported .tracker (.state .winding .leading cause)] ++
        (if s.release.hold = [] ∧ s.release.starved = false then
          [s.reported .release (.starved .runBegan none)] else []) } := by
  refine (if_pos ht).trans ?_
  rw [State.announce_installed _ _ hi, ht, Matcher.announce_leading]
  unfold State.beginRun
  cases hres : s.tracker.resume with
  | true =>
    rw [if_pos rfl, State.requestSweep_revoice, State.noteEmptied_running (i := i) _ _ (by rfl) (by exact hi)]
    rfl
  | false =>
    rw [if_neg (by simp), State.noteEmptied_running (i := i) _ _ (by rfl) (by exact hi)]
    rfl

/-- The tracker is in LEADING, or on the wait stamp at once in WAITING (R125, R130). -/
structure State.Led (s u : State) (on : Bool) : Prop where
  run      : ∃ new, u.run = { s.run with announced := new }
  position : u.tracker.position = s.tracker.position
  tempo    : u.tracker.tempo = s.tracker.tempo
  resume   : u.tracker.resume = false
  state    : u.tracker.state = if on then .waiting else .leading
  running  : u.fuser.running = true
  capture  : u.matcher.capture = 0
  miss     : u.matcher.miss = 0
  chest    : u.chest = if s.tracker.resume then s.chest.requestSweep .revoice Divisions.all else s.chest
  raised   : u.raised = s.raised ++ [s.reported .tracker (.state .winding .leading .windReady)]
    ++ (if s.release.hold = [] ∧ s.release.starved = false then
        [s.reported .release (.starved .runBegan none)] else [])
    ++ (if on then [s.reported .tracker (.state .leading .waiting .waitReached)] else [])
  release  : u.release = { s.release with starved := s.release.starved || s.release.hold.isEmpty }
  mem      : u.mem = s.mem
  link     : u.link = s.link
  waiting  : u.path.waiting = s.path.waiting

theorem State.changeAll_lead {s : State} {i : Installed} (hi : s.loader.installed = some i)
    (ht : s.tracker.state = .winding) :
    s.Led (State.changeAll s.tracker.leadChanges s)
      (s.tracker.waitStamp.any (fun w => w * 65536 == s.tracker.position)) := by
  unfold Tracker.leadChanges Tracker.waitCheck
  rw [Tracker.onWaitStamp_eq, State.changeAll, State.changeState_leading _ hi ht]
  cases s.tracker.waitStamp.any (fun w => w * 65536 == s.tracker.position) with
  | false =>
    exact ⟨⟨_, rfl⟩, rfl, rfl, rfl, rfl, rfl, rfl, rfl, rfl, (List.append_nil _).symm, rfl, rfl, rfl, rfl⟩
  | true =>
    rw [if_pos rfl, State.changeAll, State.changeState_running (i := i) (by exact hi) rfl (by exact nofun)]
    exact ⟨⟨_, rfl⟩, rfl, rfl, rfl, rfl, rfl, rfl, rfl, rfl, rfl, rfl, rfl, rfl, rfl⟩

/-- The stale WAIT cues leave with a WAIT_EXPIRED report each, and the answer is on its way (R130; log entry 12). -/
theorem State.askClear_installed {s : State} {i : Installed} {stale : List CueEntry}
    (hi : s.loader.installed = some i)
    (hstale : stale = s.matcher.cues.filter (fun e => e.wait && decide (e.stamp * 65536 < s.tracker.position))) :
    s.askClear =
    { s with
      tracker := { s.tracker with awaitingClear := true },
      matcher := { s.matcher with
        clearAnswer := true,
        cues := s.matcher.cues.filter
          (fun e => !(e.wait && decide (e.stamp * 65536 < s.tracker.position))) },
      raised := s.raised ++ stale.map (fun e => s.reported .matcher (.waitExpired e.slot e.stamp)),
      admission := { s.admission with
        slots := stale.foldl (fun m e => Table.set .free m e.slot .free) s.admission.slots } } := by
  subst hstale
  unfold State.askClear
  simp only [Matcher.clearStale]
  rw [State.raiseAll_installed (i := i) _ _ (by exact hi), State.freeSlots_fold, List.map_map, List.foldl_map]
  rfl

/-- The stage row takes its stage (log entry 28). -/
theorem exec_windConfirmed {s : State} (h : s.run.stage = .confirm) : exec .windConfirmed s = .next s.runConfirm.pump :=
  if_pos h

end Sys2Proof.Machine

open Sys2Proof Sys2Proof.Machine

/-- Settles O49: the ready report, then the end of WINDING or, by a stale wait stamp, the request to clear the cues. -/
theorem windConfirmedEntersLeading : Obligations.WindConfirmedEntersLeading := by
  intro s hw hi hstage ha ht hr
  obtain ⟨i, hi⟩ := Option.ne_none_iff_exists'.1 hi
  have confirmed {u : State} (hu : State.leaveWinding { s with
      run := s.run.ready, raised := s.raised ++ [s.reported .run (.wind .ready)] } = u) (hp : u.path.waiting = none) :=
    pumped (exec_windConfirmed hstage) ((State.runConfirm_ready hi ha hr).trans (congrArg State.runAfterLimit hu)) hp
  refine ⟨fun hfresh => ?_, fun w stale hws hlt hstale => ?_⟩
  · have led := State.changeAll_lead (i := i) (s := { s with
      run := s.run.ready, raised := s.raised ++ [s.reported .run (.wind .ready)] }) hi ht
    have leaves : State.leaveWinding { s with
        run := s.run.ready, raised := s.raised ++ [s.reported .run (.wind .ready)] } = _ :=
      (if_pos ht).trans (if_neg (by
        rw [Tracker.waitStampStale_iff]
        rintro ⟨w, hws, hlt⟩
        exact absurd (hfresh w hws) (Nat.not_le.2 hlt)))
    obtain ⟨t, ht, -, ⟨⟨_, _, _, rfl⟩, -⟩, -⟩ := confirmed leaves (led.waiting.trans hw)
    obtain ⟨new, hrun⟩ := led.run
    obtain ⟨hwind, hready, hrunning, hlimit⟩ := RunControl.ready_holdStep (.inl hrun)
    refine ⟨_, ht, hwind, hready, hrunning, hlimit, led.position, led.tempo, led.resume, led.state, led.running,
      led.capture, led.miss, led.chest, led.raised.trans ?_, led.release, led.mem, led.link⟩
    simp only [List.append_assoc]
    rfl
  · have leaves : State.leaveWinding { s with
        run := s.run.ready, raised := s.raised ++ [s.reported .run (.wind .ready)] } = _ :=
      ((if_pos ht).trans (if_pos (Tracker.waitStampStale_iff.2 ⟨w, hws, hlt⟩))).trans
        (State.askClear_installed (i := i) hi hstale)
    obtain ⟨t, ht, same⟩ := confirmed leaves hw
    have slots := fun n => same.slot (n := n)
    obtain ⟨-, ⟨⟨_, _, _, rfl⟩, -⟩, -⟩ := same
    obtain ⟨hwind, hready, hrunning, -⟩ := RunControl.ready_holdStep (r := s.run) (new := .winding) (.inr rfl)
    refine ⟨_, ht, hwind, hready, hrunning, rfl, rfl, ?_, slots, rfl, rfl, rfl, rfl⟩
    exact List.append_assoc _ _ _
end

section
/-! Processor accesses of the chest image, the log area and the status block: what a drop does, and the polarity that a
chest word passes through (R56, R57, R150, R152). -/

namespace Sys2Proof.Machine

/-- A write is dropped in an installed region alone (R56, R152, R153). -/
theorem State.dropped_installed {s : State} {n : Nat} {r : DropRegion} (h : s.dropped n = some r) :
    ∃ i, s.loader.installed = some i := by
  cases hi : s.loader.installed with
  | some i => exact ⟨i, rfl⟩
  | none =>
    have outside : regionOf none n = .anchor ∨ regionOf none n = .other := by
      unfold regionOf
      split <;> simp
    rw [State.dropped_iff, hi] at h
    rcases outside with ho | ho <;> simp [ho] at h

/-- What a drop does: the protect-seen flag and PROTECT_DROP (R56, R152). -/
theorem State.drop_eq {s : State} {n : Nat} {r : DropRegion} (v : Word) (h : s.dropped n = some r) :
    s.drop n v r = { s with
      chest := { s.chest with protectSeen := true },
      raised := s.raised ++ [s.reported r.raisedBy (.protectDrop n v r)] } := by
  obtain ⟨i, hi⟩ := State.dropped_installed h
  exact State.raise_installed (i := i) _ _ hi

/-- A write that is dropped completes as soon as it is decoded, whatever access of the part is on the port (R150). -/
theorem exec_write_dropped {c : Instr} {n : Nat} {v : Word} {r : DropRegion} {s : State}
    (hc : accessOf c = some (.write n v)) (hb : s.path.processorBusy = false) (hd : s.dropped n = some r) :
    exec c s = .next { s with
      chest := { s.chest with protectSeen := true },
      raised := s.raised ++ [s.reported r.raisedBy (.protectDrop n v r)] } := by
  rw [exec_access hc, State.access_dropped s _ n v r hb (by simp [State.droppedAccess, hd]),
    State.drop_eq v hd]

/-- The processor's data passes inverted at a chest word of a division of reverse polarity alone (R57). -/
theorem State.inverts_iff {s : State} {n : Nat} : s.inverts n = true ↔
    ∃ i, s.loader.installed = some i ∧ regionOf (some i) n = .chest
      ∧ (s.chest.division (chestDivision i n)).reverse = true := by
  unfold State.inverts
  cases s.loader.installed <;> simp

/-- A write outside the anchor block and the score area is handed to no block (R151). -/
theorem State.snoop_unheard {s : State} {n : Nat} (v : Word)
    (h : regionOf s.loader.installed n = .other ∨ regionOf s.loader.installed n = .chest) : s.snoop n v = s := by
  unfold State.snoop
  rcases h with h | h <;> rw [h]

/-- A read on a free port returns the word through its polarity (R57, R150, R154). -/
theorem read_free {c : Instr} {n : Nat} {s : State} (hc : accessOf c = some (.read n)) (hf : s.portFree) :
    exec c s = .next (s.returnRead n (s.inverts n)).pump := by
  rw [exec_access hc, State.access_free s _ hf rfl]
  rfl

end Sys2Proof.Machine

open Sys2Proof Sys2Proof.Machine

/-- Settles O11: in each of the three regions the write is dropped at its decode. -/
theorem protectedWritesDropped : Obligations.ProtectedWritesDropped := by
  intro a v s hb
  refine ⟨fun r h => ?_, fun hr hguard => ?_⟩
  · rcases h with ⟨hr, rfl⟩ | ⟨hr, rfl⟩
    · exact exec_write_dropped rfl hb (State.dropped_iff.2 (.inr (.inl ⟨hr, rfl⟩)))
    · exact exec_write_dropped rfl hb (State.dropped_iff.2 (.inr (.inr ⟨hr, rfl⟩)))
  · exact exec_write_dropped rfl hb (State.dropped_iff.2 (.inl ⟨hr, hguard, rfl⟩))

/-- Settles O12: the unprotected write is stored and heard by no block; both accesses pass through the polarity. -/
theorem chestAccessesThroughPolarity : Obligations.ChestAccessesThroughPolarity := by
  intro a v s hf
  refine ⟨fun i hi hr hidle hsweep => ?_, ?_⟩
  · have kept : s.dropped a.toNat = none := by
      simp [State.dropped, hi, hr, State.chestProtected, hidle, hsweep]
    have polarity : s.inverts a.toNat = (s.chest.division (chestDivision i a.toNat)).reverse := by
      simp [State.inverts, hi, hr]
    refine wrote rfl hf (State.processorWrite_free s _ v hf kept) ?_ rfl
    rw [polarity, State.storeAndSnoop, State.snoop_unheard _ (.inr (by exact hi ▸ hr))]
    rfl
  · refine pumped (read_free rfl hf) ?_ hf.2
    unfold State.returnRead throughPolarity State.inverts
    cases hi : s.loader.installed with
    | none => rfl
    | some i => simp
end

section
/-! Stop-mask words written by the processor, by the configuration state (R53, R55, R158). -/

namespace Sys2Proof.Machine

/-- A mask change revoices an enabled division in a running state, and nothing else follows it (R53). -/
theorem State.maskChange_eq (d : Division) (v : Word) (s : State) : s.maskChange d v = { s with
    chest :=
      if (s.chest.division d).enabled = true ∧ s.tracker.state.running = true then
        (s.chest.setMask d v).requestSweep .revoice (Divisions.single d)
      else s.chest.setMask d v } := by
  cases hr : s.tracker.state.running with
  | true => simp only [State.maskChange_running d v hr, and_true]
  | false => simp only [State.maskChange_stopped d v hr, Bool.false_eq_true, and_false, if_false]

/-- A stop-mask word cancels the pending write-back; the value is stored only, held, or a mask change (R53, R55,
R158). -/
theorem State.stopMaskWrite_eq (d : Division) (v : Word) (s : State) : s.stopMaskWrite d v = { s with
    path := { s.path with writeBacks := s.path.writeBacks.filter (fun e => e.division != d) },
    loader :=
      if s.loader.config = .loading then { s.loader with heldMasks := s.loader.heldMasks.set d (some v) }
      else s.loader,
    chest :=
      if s.loader.config = .configured ∨ s.loader.config = .deferred then
        if (s.chest.division d).enabled = true ∧ s.tracker.state.running = true then
          (s.chest.setMask d v).requestSweep .revoice (Divisions.single d)
        else s.chest.setMask d v
      else s.chest } := by
  unfold State.stopMaskWrite
  cases hc : s.loader.config <;> simp [hc, State.maskChange_eq, writeBackCancel]

/-- Anchor word 26 + 3d is the stop mask of division d (R151). -/
theorem State.anchorSnoop_stopMask (d : Division) (v : Word) (s : State) :
    s.anchorSnoop (26 + 3 * d.val) v = s.stopMaskWrite d v := by
  have hd := d.isLt
  have division : Fin.ofNat 4 ((26 + 3 * d.val - 24) / 3) = d := Fin.ext (by simp; omega)
  unfold State.anchorSnoop
  rw [if_neg (by omega), if_pos (by omega), if_pos (by omega), division]

end Sys2Proof.Machine

open Sys2Proof Sys2Proof.Machine

/-- Settles O17: the word is stored, and the loader or the chest writer takes it by the configuration state. -/
theorem stopMaskWriteTaken : Obligations.StopMaskWriteTaken := by
  intro d v s hf
  refine wrote rfl hf (State.anchorWrite_free s (26 + 3 * d.val) v hf (by omega)) ?_ rfl
  rw [State.anchorSnoop_stopMask, State.stopMaskWrite_eq]
  rfl
end

section
/-! The completion of a chest write, of a processor access and of a write-back (R44, R47, R57, R151, R154 to R156). -/

namespace Sys2Proof.Machine

/-- The write of a FIFO entry completes, whether the FIFO still holds the entry or not (R44, R47). -/
theorem exec_chestWriteDone {s : State} {e : FifoEntry} {live : Bool} (h : s.path.port = some (.chestWrite e live)) :
    exec .chestWriteDone s = .next
      (State.complete (.chestWrite e live) { s with path := { s.path with port := none } }).pump := by
  show execChestWriteDone s = _
  unfold execChestWriteDone
  rw [h]
  simp only [State.portDone_access h]

/-- PORT_ACCESS_DONE completes whichever access is on the port (log entry 6). -/
theorem exec_portAccessDone {s : State} {a : PortAccess} (h : s.path.port = some a) :
    exec .portAccessDone s = .next (State.complete a { s with path := { s.path with port := none } }).pump :=
  congrArg Host.Outcome.next (State.portDone_access h)

/-- A write of the anchor block or the score area is neither dropped nor inverted (R57, R150). -/
theorem State.plain_write {s : State} {n : Nat}
    (h : regionOf s.loader.installed n = .anchor ∨ regionOf s.loader.installed n = .score) :
    s.dropped n = none ∧ s.inverts n = false := by
  unfold State.dropped
  rw [Bool.eq_false_iff, ne_eq, State.inverts_iff]
  constructor
  · rcases h with h | h <;> rw [h]
  · rintro ⟨i, hi, hr, -⟩
    rw [hi, hr] at h
    simp at h

/-- A command that writes the anchor block or the score area on a free port: the word is stored as it is, and handed on
(R150, R151). -/
theorem plain_write_free {c : Instr} {n : Nat} {v : Word} {s : State} (hc : accessOf c = some (.write n v))
    (hf : s.portFree) (h : regionOf s.loader.installed n = .anchor ∨ regionOf s.loader.installed n = .score) :
    exec c s = .next (s.storeAndSnoop n v).pump := by
  obtain ⟨kept, plain⟩ := State.plain_write h
  rw [exec_access hc]
  refine congrArg Host.Outcome.next ((State.processorWrite_free s n v hf kept).trans ?_)
  rw [plain]
  rfl

end Sys2Proof.Machine

open Sys2Proof Sys2Proof.Machine

/-- Settles O32: both writes are stored; the entry leaves the FIFO that still holds it. -/
theorem chestWriteDoneStores : Obligations.ChestWriteDoneStores := by
  intro e s hw
  exact ⟨fun hp => pumped (exec_chestWriteDone hp) rfl hw, fun hp => pumped (exec_chestWriteDone hp) rfl hw⟩

/-- Settles O34: the completion by the access on the port. -/
theorem portAccessDoneCompletes : Obligations.PortAccessDoneCompletes := by
  intro a v s
  refine ⟨fun c hc hw hp hr => ?_, fun hw hp => pumped (exec_portAccessDone hp) rfl hw,
    fun hw hp => pumped (exec_portAccessDone hp) rfl hw, fun hw hp hr => ?_,
    fun hw hp => pumped (exec_portAccessDone hp) rfl hw, fun hp => ?_⟩
  · exact (exec_portAccessDone hp).trans (plain_write_free hc (by exact ⟨rfl, hw⟩) (by exact hr)).symm
  · exact pumped (exec_portAccessDone hp) (State.snoop_unheard v (by exact hr)) hw
  · show Host.Outcome.next s.portDone = _
    unfold State.portDone
    rw [hp]
end

section
/-! WIND_LIMIT and WIND_DROP: the halt of a run with its MUTE request, and the rest of the frame event behind it (R47,
R50, R52, R131, R147, R148). -/

namespace Sys2Proof.Machine

/-! ### A MUTE request (table of R52) -/

theorem Chest.requestMute_under_off {c : Chest} {w : Sweep} (hs : c.sweep = some w) (hk : w.kind = .off) :
    c.requestSweep .mute Divisions.all = c := by
  simp [Chest.requestSweep, hs, hk]

theorem Chest.requestMute_under_mute {c : Chest} {w : Sweep} (hs : c.sweep = some w) (hk : w.kind = .mute) :
    c.requestSweep .mute Divisions.all = { c with union := Divisions.none } := by
  simp [Chest.requestSweep, hs, hk]

theorem Chest.requestMute_starts {c : Chest} (h : ∀ w, c.sweep = some w → w.kind = .revoice) :
    c.requestSweep .mute Divisions.all = c.startMute := by
  cases hs : c.sweep with
  | none => simp [Chest.requestSweep, hs]
  | some w => simp [Chest.requestSweep, hs, h w hs]

theorem Chest.afterMute_requestSweep (c : Chest) : c.afterMute (c.requestSweep .mute Divisions.all) := by
  refine ⟨fun w hs hk => Chest.requestMute_under_off hs hk, fun w hs hk => Chest.requestMute_under_mute hs hk,
    fun h => ?_⟩
  rw [Chest.requestMute_starts h]
  exact ⟨rfl, rfl, rfl, c.startMute_sound, rfl, rfl⟩

/-! ### The halt of a run (R131) -/

/-- State t is the halt of state s: what the chest writer, the tracker and the fuser take of it, its STATE report, and
what stays of the run (R131). -/
structure State.Halted (s t : State) (cause : StateCause) : Prop where
  tracker : t.tracker = { s.tracker with state := .halted, resume := false, awaitingClear := false }
  chest   : t.chest = s.chest.requestSweep .mute Divisions.all
  cues    : t.matcher.cues = s.matcher.cues
  capture : t.matcher.capture = s.matcher.capture
  miss    : t.matcher.miss = s.matcher.miss
  fuser   : t.fuser = { window := none, running := false }
  raised  : t.raised = s.raised ++ [s.reported .tracker (.state s.tracker.state .halted cause)]
  release : t.release = s.release
  mem     : t.mem = s.mem
  link    : t.link = s.link

/-- The run controller at the halt: a settle ends without confirmation, and the limit counter stops (R147, R148). -/
theorem State.changeState_halted_run {s : State} {i : Installed} (hi : s.loader.installed = some i)
    (cause : StateCause) :
    (s.changeState .halted cause).run = { s.run.endWinding with announced := .halted } := by
  obtain ⟨port, h⟩ := State.changeState_halted hi cause
  rw [h]

/-- A row that halts the run from state u, with the run controller's own step behind it. -/
theorem halts {c : Instr} {s u : State} {i : Installed} {r : RunControl} {cause : StateCause}
    (hi : u.loader.installed = some i) (hw : u.path.waiting = none)
    (h : exec c s = .next (State.pump { u.changeState .halted cause with run := r })) :
    ∃ t, exec c s = .next t ∧ u.Halted t cause ∧ t.run = r := by
  obtain ⟨port, halted⟩ := State.changeState_halted hi cause
  rw [halted] at h
  obtain ⟨t, ht, -, ⟨⟨_, _, _, rfl⟩, -⟩, -⟩ := pumped h rfl hw
  exact ⟨_, ht, ⟨rfl, rfl, rfl, rfl, rfl, rfl, rfl, rfl, rfl, rfl⟩, rfl⟩

/-! ### The frame event behind the drop test (R145 to R147; log entry 28) -/

/-- No settle goes on outside WINDING, nor at a low sample in UNCONFIRMED (R145, R146). -/
theorem RunControl.settleStep_still (windSettle : Nat) {r : RunControl}
    (h : r.announced ≠ .winding ∨ r.wind = .unconfirmed ∧ r.windLast = some false) : r.settleStep windSettle = r := by
  unfold RunControl.settleStep
  rcases h with h | ⟨hw, hl⟩
  · exact if_neg h
  · simp [hw, RunControl.bothHigh, hl]

/-- The limit counter's step leaves the wind as it is (R147). -/
theorem RunControl.limitStep_keeps (windLimit : Nat) (r : RunControl) :
    (r.limitStep windLimit).wind = r.wind ∧ (r.limitStep windLimit).windReq = r.windReq := by
  unfold RunControl.limitStep
  split
  · split <;> exact ⟨rfl, rfl⟩
  · exact ⟨rfl, rfl⟩

/-- With no settle to go on and the wind not CONFIRMED, the rest of the frame event is the run controller's alone: the
limit counter, and the hold timer unless the limit is reached (R144 to R147). -/
theorem State.runAfterDrop_still {s : State} (hw : s.run.wind = .unconfirmed) (hs : s.run.stage = .done)
    (h : s.run.announced ≠ .winding ∨ s.run.windLast = some false) :
    ∃ r : RunControl, s.runAfterDrop = { s with run := r } ∧ r.wind = .unconfirmed ∧ r.windReq = s.run.windReq := by
  have settled : s.run.settleStep s.windSettings.1 = s.run :=
    RunControl.settleStep_still _ (h.imp_right fun h => ⟨hw, h⟩)
  have rest : s.runAfterDrop = s.runAfterSettle := by
    simp only [State.runAfterDrop, settled, hs, reduceCtorEq, if_false]
  obtain ⟨hwind, hreq⟩ := RunControl.limitStep_keeps s.windSettings.2 s.run
  rw [rest]
  unfold State.runAfterSettle
  dsimp only
  split
  · exact ⟨_, rfl, hwind.trans hw, hreq⟩
  · have silent : (s.run.limitStep s.windSettings.2).readyDue = false := by
      simp [RunControl.readyDue, hwind, hw]
    obtain ⟨-, hkeep, hkeepReq, -⟩ := (s.run.limitStep s.windSettings.2).holdStep_keeps
    refine ⟨(s.run.limitStep s.windSettings.2).holdStep, ?_, hkeep.trans (hwind.trans hw), hkeepReq.trans hreq⟩
    unfold State.reportReady
    simp only [silent, Bool.false_eq_true, if_false]
    rfl

/-! ### The two rows -/

/-- The stage row takes its stage (log entry 28). -/
theorem exec_windLimit {s : State} (h : s.run.stage = .limit) : exec .windLimit s = .next s.runLimit.pump :=
  if_pos h

theorem exec_windDrop {s : State} (h : s.run.stage = .drop) : exec .windDrop s = .next s.runDrop.pump :=
  if_pos h

/-- The limit counter stops with the wind UNCONFIRMED, and WIND is raised (R147). -/
def State.limitReached (i : Installed) (s : State) : State :=
  { s with
    run := ({ s.run with stage := .done } : RunControl).reachLimit i.windLimit,
    raised := s.raised ++ [s.reported .run (.wind (.limit s.run.wind))] }

theorem State.runLimit_winding {s : State} {i : Installed} (hi : s.loader.installed = some i)
    (ht : s.tracker.state = .winding) :
    s.runLimit = (State.changeState .halted .windLimit (s.limitReached i)).runAfterLimit := by
  unfold State.runLimit
  rw [State.raise_installed (i := i) _ _ (by exact hi)]
  refine (congrArg State.runAfterLimit (if_pos ht)).trans ?_
  simp only [State.windSettings, State.setStage_loader, hi]
  rfl

/-- The wind is UNCONFIRMED, and WIND is raised (R148). -/
def State.windDropped (s : State) : State :=
  { s with
    run := { s.run with stage := .done, wind := .unconfirmed },
    raised := s.raised ++ [s.reported .run (.wind (.dropped s.run.announced))] }

theorem State.runDrop_eq {s : State} {i : Installed} (hi : s.loader.installed = some i) :
    s.runDrop = s.windDropped.haltByDrop.runAfterDrop := by
  show (State.raise _ _ _).haltByDrop.runAfterDrop = _
  rw [State.raise_installed (i := i) _ _ (by exact hi)]
  rfl

/-- A run halts by the drop, and so does a WINDING after the ready report (R148). -/
theorem State.haltByDrop_halts {s : State}
    (h : s.tracker.state.running = true ∨ s.tracker.state = .winding ∧ s.run.readyReported = true) :
    s.haltByDrop = s.changeState .halted .windDrop := by
  refine if_pos ?_
  rcases h with h | ⟨ht, hr⟩
  · simp [h]
  · simp [ht, hr]

/-- Elsewhere the tracker takes nothing of the drop (R148). -/
theorem State.haltByDrop_stays {s : State} (h1 : s.tracker.state.running = false)
    (h2 : s.tracker.state = .winding → s.run.readyReported = false) : s.haltByDrop = s := by
  refine if_neg ?_
  simpa [h1] using h2

end Sys2Proof.Machine

open Sys2Proof Sys2Proof.Machine

/-- Settles O50: the run controller at its limit, then the halt, then the hold timer's step. -/
theorem windLimitHalts : Obligations.WindLimitHalts := by
  intro s hw hi hstage _ ht
  obtain ⟨i, hi⟩ := Option.ne_none_iff_exists'.1 hi
  have row := (exec_windLimit hstage).trans
    (congrArg (fun u => Host.Outcome.next (State.pump u)) (State.runLimit_winding hi ht))
  obtain ⟨t, hexec, halted, hrun⟩ := halts (u := s.limitReached i) (by exact hi) (by exact hw) row
  rw [State.changeState_halted_run (i := i) (by exact hi)] at hrun
  obtain ⟨hrunning, hwind, hreq, hsettle, -⟩ :=
    RunControl.holdStep_keeps { (s.limitReached i).run.endWinding with announced := .halted }
  rw [← hrun] at hrunning hwind hreq hsettle
  refine ⟨t, hexec, halted.tracker, hrunning, hwind, hreq, hsettle, halted.chest,
    halted.chest ▸ s.chest.afterMute_requestSweep, halted.raised.trans ?_, halted.release, halted.cues,
    congrArg Fuser.window halted.fuser, halted.mem, halted.link⟩
  rw [show (s.limitReached i).tracker.state = .winding from ht]
  exact List.append_assoc _ _ _

/-- Settles O51: by the tracker state the drop halts the run or is only reported; what is left of the frame event is the
run controller's alone. -/
theorem windDropHalts : Obligations.WindDropHalts := by
  intro s hw hi hstage ha
  obtain ⟨i, hi⟩ := Option.ne_none_iff_exists'.1 hi
  have row := (exec_windDrop hstage).trans (congrArg (fun u => Host.Outcome.next (State.pump u)) (State.runDrop_eq hi))
  have raised : s.windDropped.raised = s.raised ++ [s.reported .run (.wind (.dropped s.tracker.state))] := by
    rw [← ha]
    rfl
  refine ⟨fun h => ?_, fun h => ?_⟩
  · have atHalt := State.changeState_halted_run (s := s.windDropped) (i := i) (by exact hi) .windDrop
    obtain ⟨r, hr, hwind, hreq⟩ := State.runAfterDrop_still (s := s.windDropped.changeState .halted .windDrop)
      (by rw [atHalt]; rfl) (by rw [atHalt]; rfl) (.inl (by rw [atHalt]; exact nofun))
    rw [State.haltByDrop_halts (by exact h), hr] at row
    obtain ⟨t, hexec, halted, hrun⟩ := halts (u := s.windDropped) (by exact hi) (by exact hw) row
    refine ⟨t, hexec, halted.tracker, hrun ▸ hwind, ?_, halted.chest, halted.chest ▸ s.chest.afterMute_requestSweep,
      halted.release, halted.cues, halted.capture, halted.miss, congrArg Fuser.window halted.fuser,
      congrArg Fuser.running halted.fuser, halted.raised.trans ?_, halted.mem, halted.link⟩
    · rw [hrun, hreq, atHalt]
      rfl
    · rw [raised, List.append_assoc]
      rfl
  · have still : s.tracker.state.running = false ∧ (s.tracker.state = .winding → s.run.readyReported = false)
        ∧ (s.tracker.state ≠ .winding ∨ s.run.windLast = some false) := by
      rcases h with h | h | h | ⟨h, hr, hl⟩ <;> simp_all [TrackerState.running]
    obtain ⟨hrun, hready, hsettle⟩ := still
    have stays : s.windDropped.haltByDrop = s.windDropped := State.haltByDrop_stays hrun hready
    obtain ⟨r, hr, hwind, -⟩ := State.runAfterDrop_still (s := s.windDropped) rfl rfl (ha ▸ hsettle)
    rw [stays, hr] at row
    obtain ⟨t, hexec, -, ⟨⟨_, _, _, rfl⟩, -⟩, -⟩ := pumped row rfl (by exact hw)
    exact ⟨_, hexec, rfl, hwind, rfl, raised⟩
end

section
/-! Pending-on keys: when their repeat gap has passed, and the write of the first due one (R42, R43, R46). -/

namespace Sys2Proof.Machine

/-- An on-write is held back while its repeat gap runs (R42). -/
theorem heldBack_iff {gap : Nat} {now : Frame} {last : Option Frame} :
    heldBack gap now last = true ↔ ∃ f, last = some f ∧ (now - f).toNat < gap := by
  cases last <;> simp [heldBack]

/-- A pending-on key whose repeat gap has passed becomes due (R43). -/
theorem SoundEntry.becomeDue_past {gap : Nat} {now : Frame} {e : SoundEntry} (hp : e.pendingOn = true)
    (h : ∀ f, e.lastOff = some f → gap ≤ (now - f).toNat) : e.becomeDue gap now = { e with due := true } :=
  if_pos (by rw [hp, heldBack_past h]; rfl)

/-- No other key becomes due (R43). -/
theorem SoundEntry.becomeDue_not {gap : Nat} {now : Frame} {e : SoundEntry}
    (h : ¬ (e.pendingOn = true ∧ ∀ f, e.lastOff = some f → gap ≤ (now - f).toNat)) : e.becomeDue gap now = e := by
  refine if_neg fun hdue => h ?_
  rw [Bool.and_eq_true, Bool.not_eq_true', Bool.eq_false_iff, ne_eq, heldBack_iff] at hdue
  exact ⟨hdue.1, fun f hf => Nat.not_lt.1 fun hlt => hdue.2 ⟨f, hf, hlt⟩⟩

/-- The test of R43 at each key of the sounding table; a key that nothing has touched is not pending-on. -/
theorem Chest.markDue_sound (gap : Nat) (now : Frame) {c : Chest} (h : Table.wf SoundEntry.quiet c.sounding = true)
    (d : Division) (k : Nat) : (c.markDue gap now).sound d k = (c.sound d k).becomeDue gap now :=
  Table.get_mapValues (SoundEntry.becomeDue gap now) rfl _ _ h

theorem exec_repeatGapDue {s : State} {i : Installed} (hi : s.loader.installed = some i) :
    exec .repeatGapDue s = .next { s with chest := s.chest.markDue i.repeatGap s.link.frame } := by
  show Host.Outcome.next s.markDue = _
  unfold State.markDue
  rw [hi]

/-- With space for it, the write of the first due key is queued (R43, R46). -/
theorem exec_pendingOnWrite_open {s : State} {i : Installed} {d : Division} {k : Nat}
    (hi : s.loader.installed = some i) (hd : s.chest.firstDue = some (d, k)) (hf : s.fifoOpen = true) :
    exec .pendingOnWrite s = .next (State.pump { s with chest := s.chest.writePending i d k }) := by
  show execPendingOnWrite s = _
  unfold execPendingOnWrite
  rw [hi, hd]
  exact if_pos hf

/-- Without an open FIFO it waits (R46). -/
theorem exec_pendingOnWrite_waits {s : State} (hf : s.fifoOpen = false) : exec .pendingOnWrite s = .next s := by
  show execPendingOnWrite s = _
  unfold execPendingOnWrite
  split
  · exact if_neg (by simp [hf])
  · rfl

end Sys2Proof.Machine

open Sys2Proof Sys2Proof.Machine

/-- Settles O55: the test of the repeat gap key by key, and the write of the first due key by the FIFO's space. -/
theorem pendingOnDueThenWritten : Obligations.PendingOnDueThenWritten := by
  intro i s hi hcanonical
  have hwf : Table.wf SoundEntry.quiet s.chest.sounding = true := by
    simp only [State.tablesCanonical, Bool.and_eq_true] at hcanonical
    exact hcanonical.2
  refine ⟨⟨_, exec_repeatGapDue hi, rfl, fun d k => ?_⟩, fun d k hd => ⟨fun hw hroom hfree => ?_, fun h => ?_⟩⟩
  · refine (Chest.markDue_sound _ _ hwf d k).trans ?_
    split
    · next hp => exact SoundEntry.becomeDue_past hp.1 hp.2
    · next hp => exact SoundEntry.becomeDue_not hp
  · exact pumped (exec_pendingOnWrite_open hi hd (State.fifoOpen_iff.2 ⟨hroom, hfree⟩)) rfl hw
  · refine exec_pendingOnWrite_waits ?_
    rw [Bool.eq_false_iff, ne_eq, State.fifoOpen_iff]
    rintro ⟨hroom, hfree⟩
    rcases h with h | h
    · omega
    · simp [hfree] at h
end

section
/-! The holds of a note action: what each finds and does, their order through the couplers, and their writes (R39 to
R42, R45, R52). -/

namespace Sys2Proof.Machine

/-! ### One hold by the holder count (R40 to R42) -/

/-- A sweep of this kind runs (R48). -/
theorem Chest.sweeping_iff {c : Chest} {kind : SweepKind} :
    c.sweeping kind = true ↔ ∃ w, c.sweep = some w ∧ w.kind = kind := by
  unfold Chest.sweeping
  cases c.sweep <;> simp

theorem Chest.sweeping_other {c : Chest} {kind : SweepKind} (h : ∀ w, c.sweep = some w → w.kind ≠ kind) :
    c.sweeping kind = false := by
  rw [Bool.eq_false_iff, ne_eq, Chest.sweeping_iff]
  rintro ⟨w, hw, hk⟩
  exact h w hw hk

/-- A key's entry is set, and one write is queued for it. -/
def Chest.written (h : NoteHold) (e : SoundEntry) (w : FifoEntry) (c : Chest) : Chest :=
  { c.setSound h.division h.key e with fifo := c.fifo ++ [w] }

section
variable {c : Chest} {i : Installed} {now : Frame} {n : Nat} {h : NoteHold}

theorem Chest.holdOn_full (he : 7 ≤ (c.sound h.division h.key).holders) :
    Chest.holdOn i now h c = (c, [.holderOverflow h.division h.key h.coupled]) :=
  if_pos he

theorem Chest.holdOn_held (h1 : 1 ≤ (c.sound h.division h.key).holders)
    (h6 : (c.sound h.division h.key).holders ≤ 6) : Chest.holdOn i now h c =
    (c.setSound h.division h.key
      { c.sound h.division h.key with holders := (c.sound h.division h.key).holders + 1 }, []) :=
  (if_neg (by rw [Config.holderLimit]; omega)).trans (if_pos (Nat.ne_of_gt h1))

/-- The on-hold of a key that nothing holds (R40). -/
theorem Chest.holdOn_first (h0 : (c.sound h.division h.key).holders = 0) : Chest.holdOn i now h c =
    if c.sweeping .mute then
      ({ c.setSound h.division h.key { c.sound h.division h.key with holders := 1 } with
        union := c.union.join (Divisions.single h.division) }, [])
    else if heldBack i.repeatGap now (c.sound h.division h.key).lastOff then
      (c.setSound h.division h.key
        { c.sound h.division h.key with holders := 1, pendingOn := true, due := false }, [])
    else
      (c.written h { c.sound h.division h.key with holders := 1 }
        (c.entryFor i h.division h.key (c.division h.division).stopMask true false), []) := by
  have room : ¬ Config.holderLimit ≤ 0 := by decide
  unfold Chest.holdOn
  simp only [h0, room, if_false, ne_eq, not_true_eq_false]
  rfl

/-- Outside a MUTE, with the repeat gap past, the on-write is queued (R40, R42). -/
theorem Chest.holdOn_queues (h0 : (c.sound h.division h.key).holders = 0)
    (hs : ∀ w, c.sweep = some w → w.kind ≠ .mute)
    (hg : ∀ f, (c.sound h.division h.key).lastOff = some f → i.repeatGap ≤ (now - f).toNat) :
    Chest.holdOn i now h c =
    (c.written h { c.sound h.division h.key with holders := 1 }
      (c.entryFor i h.division h.key (c.division h.division).stopMask true false), []) := by
  simp only [Chest.holdOn_first h0, Chest.sweeping_other hs, heldBack_past hg, Bool.false_eq_true, if_false]

theorem Chest.holdOff_silent (h0 : (c.sound h.division h.key).holders = 0) :
    Chest.holdOff i now n h c = (c, if h.coupled then [] else [.unmatchedOff h.division n h.key]) :=
  if_pos h0

theorem Chest.holdOff_held (h2 : 2 ≤ (c.sound h.division h.key).holders) : Chest.holdOff i now n h c =
    (c.setSound h.division h.key
      { c.sound h.division h.key with holders := (c.sound h.division h.key).holders - 1 }, []) :=
  (if_neg (by omega)).trans (if_pos h2)

/-- The off-hold of a key held once (R41). -/
theorem Chest.holdOff_last (h1 : (c.sound h.division h.key).holders = 1) : Chest.holdOff i now n h c =
    if (c.sound h.division h.key).pendingOn then
      (c.setSound h.division h.key
        { c.sound h.division h.key with holders := 0, pendingOn := false, due := false }, [])
    else if c.sweeping .mute then
      ({ c.setSound h.division h.key { c.sound h.division h.key with holders := 0 } with
        union := c.union.join (Divisions.single h.division) }, [])
    else
      (c.written h { c.sound h.division h.key with holders := 0, lastOff := some now }
        (c.entryFor i h.division h.key 0 false false), []) :=
  (if_neg (by omega)).trans (if_neg (by omega))

/-- Outside a MUTE the off-write of a key that is not pending-on is queued (R41). -/
theorem Chest.holdOff_queues (h1 : (c.sound h.division h.key).holders = 1)
    (hp : (c.sound h.division h.key).pendingOn = false) (hs : ∀ w, c.sweep = some w → w.kind ≠ .mute) :
    Chest.holdOff i now n h c =
    (c.written h { c.sound h.division h.key with holders := 0, lastOff := some now }
      (c.entryFor i h.division h.key 0 false false), []) := by
  simp only [Chest.holdOff_last h1, hp, Chest.sweeping_other hs, Bool.false_eq_true, if_false]

end

/-! ### The holds of a note action (R39) -/

theorem mem_holdAt {d : Division} {k : Int} {coupled : Bool} {x : NoteHold} : x ∈ holdAt d k coupled ↔
    (0 ≤ k ∧ k < compass d) ∧ x = { division := d, key := k.toNat, coupled := coupled } := by
  unfold holdAt
  split <;> simp [*]

theorem mem_coupledHold {c : Chest} {o : Option Coupler} {k : Int} {x : NoteHold} : x ∈ c.coupledHold o k ↔
    ∃ y, o = some y ∧ (c.division y.target).enabled = true ∧ x ∈ holdAt y.target (k + y.offset) true := by
  unfold Chest.coupledHold
  cases o with
  | none => simp
  | some y =>
    dsimp only
    split <;> simp [*]

theorem Chest.noteHolds_disabled {c : Chest} {d : Division} (n : Nat) (h : (c.division d).enabled = false) :
    c.noteHolds d n = [] :=
  if_neg (by simp [h])

theorem Chest.noteHolds_enabled {c : Chest} {d : Division} (n : Nat) (h : (c.division d).enabled = true) :
    c.noteHolds d n = holdAt d (n + (c.division d).transpose) false
      ++ c.coupledHold (c.division d).couplerA (n + (c.division d).transpose)
      ++ c.coupledHold (c.division d).couplerB (n + (c.division d).transpose) :=
  if_pos h

/-- A hold of a note action is the direct key's within its compass, or a coupler's (R39). -/
theorem mem_noteHolds {c : Chest} {d : Division} {n : Nat} {x : NoteHold} (h : x ∈ c.noteHolds d n) :
    x ∈ holdAt d (n + (c.division d).transpose) false ∨ ∃ t k, x ∈ holdAt t k true := by
  cases he : (c.division d).enabled with
  | false => simp [Chest.noteHolds_disabled n he] at h
  | true =>
    rw [Chest.noteHolds_enabled n he] at h
    simp only [List.mem_append, mem_coupledHold] at h
    rcases h with (h | ⟨y, -, -, h⟩) | ⟨y, -, -, h⟩
    · exact .inl h
    · exact .inr ⟨_, _, h⟩
    · exact .inr ⟨_, _, h⟩

/-- Every hold lies within the compass of its division (R36, R39). -/
theorem Chest.noteHolds_compass {c : Chest} {d : Division} {n : Nat} {x : NoteHold} (h : x ∈ c.noteHolds d n) :
    x.key < compass x.division := by
  have within : ∀ {t : Division} {k : Int} {b : Bool}, x ∈ holdAt t k b → x.key < compass x.division := by
    intro t k b hx
    obtain ⟨⟨h0, hk⟩, rfl⟩ := mem_holdAt.1 hx
    show k.toNat < compass t
    omega
  rcases mem_noteHolds h with h | ⟨_, _, h⟩
  · exact within h
  · exact within h

/-! ### Their writes in order (R45) -/

/-- The key of a hold in the sounding table. -/
def NoteHold.place (h : NoteHold) : Nat := soundKey h.division h.key

theorem compass_le (d : Division) : compass d ≤ 61 := by
  unfold compass
  split <;> omega

/-- Holds of different keys within their compasses have different entries of the sounding table (R36, R38). -/
theorem places_nodup {holds : List NoteHold} (hc : ∀ x ∈ holds, x.key < compass x.division)
    (hn : (holds.map (fun x => (x.division, x.key))).Nodup) : (holds.map NoteHold.place).Nodup := by
  refine List.Nodup.map_on (fun x hx y hy hxy => List.inj_on_of_nodup_map hn hx hy ?_) hn.of_map
  have hkx := Nat.lt_of_lt_of_le (hc x hx) (compass_le _)
  have hky := Nat.lt_of_lt_of_le (hc y hy) (compass_le _)
  simp only [NoteHold.place, soundKey] at hxy
  exact Prod.ext (Fin.ext (by show x.division.val = y.division.val; omega)) (by show x.key = y.key; omega)

/-- One write after another: each hold's entry is set, and its write is queued. -/
def Chest.writtenAll (new : NoteHold → SoundEntry) (out : NoteHold → FifoEntry) : List NoteHold → Chest → Chest
  | [], c => c
  | x :: holds, c => Chest.writtenAll new out holds (c.written x (new x) (out x))

section
variable {new : NoteHold → SoundEntry} {out : NoteHold → FifoEntry} {holds : List NoteHold}

theorem Chest.writtenAll_fifo (c : Chest) : (c.writtenAll new out holds).fifo = c.fifo ++ holds.map out := by
  induction holds generalizing c with
  | nil => simp [Chest.writtenAll]
  | cons x holds ih =>
    rw [Chest.writtenAll, ih]
    simp [Chest.written]

theorem Chest.written_sound_same (c : Chest) (x : NoteHold) {e : SoundEntry} (w : FifoEntry)
    (h : e ≠ SoundEntry.quiet) : (c.written x e w).sound x.division x.key = e :=
  Table.get_set_value c.sounding x.place h

theorem Chest.written_sound_other (c : Chest) {x y : NoteHold} (e : SoundEntry) (w : FifoEntry)
    (h : y.place ≠ x.place) : (c.written x e w).sound y.division y.key = c.sound y.division y.key :=
  Table.get_set_other c.sounding e h

theorem Chest.writtenAll_sound_other (c : Chest) {y : NoteHold} (h : y.place ∉ holds.map NoteHold.place) :
    (c.writtenAll new out holds).sound y.division y.key = c.sound y.division y.key := by
  induction holds generalizing c with
  | nil => rfl
  | cons x holds ih =>
    rw [List.map_cons, List.mem_cons, not_or] at h
    rw [Chest.writtenAll, ih _ h.2, Chest.written_sound_other c _ _ h.1]

theorem Chest.writtenAll_sound (c : Chest) (hn : (holds.map NoteHold.place).Nodup)
    (hq : ∀ x ∈ holds, new x ≠ SoundEntry.quiet) :
    ∀ x ∈ holds, (c.writtenAll new out holds).sound x.division x.key = new x := by
  induction holds generalizing c with
  | nil => nofun
  | cons x holds ih =>
    rw [List.map_cons, List.nodup_cons] at hn
    rw [List.forall_mem_cons] at hq ⊢
    exact ⟨(Chest.writtenAll_sound_other _ hn.1).trans (Chest.written_sound_same c x _ hq.1), ih _ hn.2 hq.2⟩

/-- Chest t has the division map and the sweep of chest c, and c's entries at the keys of these holds. -/
structure Chest.SameFor (c t : Chest) (holds : List NoteHold) : Prop where
  divisions : t.divisions = c.divisions
  sweep     : t.sweep = c.sweep
  sound     : ∀ x ∈ holds, t.sound x.division x.key = c.sound x.division x.key

/-- Holds that each queue one write, on keys that differ, queue them in order: no hold sees another's (R45). -/
theorem Chest.takeHolds_written {f : NoteHold → Chest → Chest × List Report} {c t : Chest}
    (hn : (holds.map NoteHold.place).Nodup) (ht : c.SameFor t holds)
    (hf : ∀ x ∈ holds, ∀ u, c.SameFor u [x] → f x u = (u.written x (new x) (out x), [])) :
    Chest.takeHolds f holds t = (t.writtenAll new out holds, []) := by
  induction holds generalizing t with
  | nil => rfl
  | cons x holds ih =>
    rw [List.map_cons, List.nodup_cons] at hn
    obtain ⟨hdiv, hsweep, hsound⟩ := ht
    rw [List.forall_mem_cons] at hf hsound
    have first : f x t = (t.written x (new x) (out x), []) :=
      hf.1 t ⟨hdiv, hsweep, by simpa using hsound.1⟩
    have rest : c.SameFor (t.written x (new x) (out x)) holds := ⟨hdiv, hsweep, fun y hy =>
      (Chest.written_sound_other t _ _ fun he => hn.1 (he ▸ List.mem_map_of_mem hy)).trans (hsound.2 y hy)⟩
    simp only [Chest.takeHolds, first, ih hn.2 rest hf.2, List.nil_append]
    rfl

/-- A note action whose holds each queue one write, on keys that differ, queues them in order (R45). -/
theorem Chest.noteAction_writes {c : Chest} {i : Installed} {now : Frame} {d : Division} {n : Nat} {on : Bool}
    (hn : ((c.noteHolds d n).map (fun x => (x.division, x.key))).Nodup)
    (hq : ∀ x ∈ c.noteHolds d n, new x ≠ SoundEntry.quiet)
    (hf : ∀ x ∈ c.noteHolds d n, ∀ u, c.SameFor u [x] →
      (if on then Chest.holdOn i now x u else Chest.holdOff i now n x u) = (u.written x (new x) (out x), [])) :
    (c.noteAction i now d n on).1.fifo = c.fifo ++ (c.noteHolds d n).map out
      ∧ (c.noteAction i now d n on).2 = []
      ∧ ∀ x ∈ c.noteHolds d n, (c.noteAction i now d n on).1.sound x.division x.key = new x := by
  have apart := places_nodup (fun _ => Chest.noteHolds_compass) hn
  have action : c.noteAction i now d n on = Chest.takeHolds
      (fun x u => if on then Chest.holdOn i now x u else Chest.holdOff i now n x u) (c.noteHolds d n) c := by
    cases on <;> rfl
  rw [action, Chest.takeHolds_written apart ⟨rfl, rfl, fun _ _ => rfl⟩ hf]
  exact ⟨c.writtenAll_fifo, rfl, c.writtenAll_sound apart hq⟩

end

section
variable {c u : Chest} {i : Installed} {now : Frame} {n : Nat} {x : NoteHold}

theorem Chest.SameFor.entryFor (h : c.SameFor u [x]) (v : Word) (on : Bool) :
    u.entryFor i x.division x.key v on false = c.entryFor i x.division x.key v on false := by
  simp only [Chest.entryFor, Chest.division, h.divisions]

/-- The on-hold of a silent key, behind writes to other keys (R40, R45). -/
theorem Chest.SameFor.holdOn (h : c.SameFor u [x]) (hs : ∀ w, c.sweep = some w → w.kind ≠ .mute)
    (h0 : (c.sound x.division x.key).holders = 0)
    (hg : ∀ f, (c.sound x.division x.key).lastOff = some f → i.repeatGap ≤ (now - f).toNat) :
    Chest.holdOn i now x u =
    (u.written x { c.sound x.division x.key with holders := 1 }
      (c.entryFor i x.division x.key (c.division x.division).stopMask true false), []) := by
  have same := h.sound x (by simp)
  have settings : u.division x.division = c.division x.division := by simp only [Chest.division, h.divisions]
  rw [Chest.holdOn_queues (by rw [same]; exact h0) (by rw [h.sweep]; exact hs) (by rw [same]; exact hg), same,
    h.entryFor, settings]

/-- The off-hold of a key held once, behind writes to other keys (R41, R45). -/
theorem Chest.SameFor.holdOff (h : c.SameFor u [x]) (hs : ∀ w, c.sweep = some w → w.kind ≠ .mute)
    (h1 : (c.sound x.division x.key).holders = 1) (hp : (c.sound x.division x.key).pendingOn = false) :
    Chest.holdOff i now n x u =
    (u.written x { c.sound x.division x.key with holders := 0, lastOff := some now }
      (c.entryFor i x.division x.key 0 false false), []) := by
  have same := h.sound x (by simp)
  rw [Chest.holdOff_queues (by rw [same]; exact h1) (by rw [same]; exact hp) (by rw [h.sweep]; exact hs), same,
    h.entryFor]

end

end Sys2Proof.Machine

open Sys2Proof Sys2Proof.Machine

/-- Settles O54: each hold by the holder count it finds, the holds through the couplers, and their writes in order. -/
theorem noteHoldsTaken : Obligations.NoteHoldsTaken := by
  rintro i now key h c e stored rfl hstored
  have muted : ∀ w, c.sweep = some w → w.kind = .mute → c.sweeping .mute = true := fun w hw hk =>
    Chest.sweeping_iff.2 ⟨w, hw, hk⟩
  refine ⟨Chest.holdOn_full, Chest.holdOn_held, fun w h0 hw hk => ?_, fun f h0 hs hf hlt => ?_, fun h0 hs hg => ?_,
    Chest.holdOff_silent, Chest.holdOff_held, fun h1 hp => ?_, fun w h1 hp hw hk => ?_, fun h1 hp hs => ?_,
    fun d on hd => ?_, fun d hout x hx => ?_, fun d k coupled hd hk hcoupled => ?_,
    fun d holds out hholds hn hs hout => ?_⟩
  · rw [Chest.holdOn_first h0, if_pos (muted w hw hk)]
  · rw [Chest.holdOn_first h0, if_neg (by simp [Chest.sweeping_other hs]), if_pos (heldBack_iff.2 ⟨f, hf, hlt⟩)]
  · rw [hstored]
    exact Chest.holdOn_queues h0 hs hg
  · rw [Chest.holdOff_last h1, if_pos hp]
  · rw [Chest.holdOff_last h1, if_neg (by simp [hp]), if_pos (muted w hw hk)]
  · rw [hstored]
    exact Chest.holdOff_queues h1 hp hs
  · unfold Chest.noteAction
    rw [Chest.noteHolds_disabled key hd]
    cases on <;> rfl
  · rcases mem_noteHolds hx with hx | ⟨_, _, hx⟩
    · obtain ⟨hin, -⟩ := mem_holdAt.1 hx
      omega
    · obtain ⟨-, rfl⟩ := mem_holdAt.1 hx
      rfl
  · have through : ∀ o, coupled o = c.coupledHold o k := fun o => by
      rw [hcoupled]
      unfold Chest.coupledHold holdAt
      cases o with
      | none => rfl
      | some y => by_cases he : (c.division y.target).enabled = true <;> simp [he]
    rw [Chest.noteHolds_enabled key hd, through, through, hk]
    rfl
  · subst hholds
    have queued : ∀ v on (x : NoteHold), c.entryFor i x.division x.key v on false = out v on x :=
      fun v on x => (hout v on x).symm
    refine ⟨c.noteHolds_length d key, fun hsilent => ?_, fun honce => ?_⟩
    · refine Chest.noteAction_writes (new := fun x => { c.sound x.division x.key with holders := 1 }) hn
        (fun x _ => by simp [SoundEntry.quiet]) fun x hx u hu => ?_
      rw [if_pos rfl, hu.holdOn hs (hsilent x hx).1 (hsilent x hx).2, queued]
    · refine Chest.noteAction_writes
        (new := fun x => { c.sound x.division x.key with holders := 0, lastOff := some now }) hn
        (fun x _ => by simp [SoundEntry.quiet]) fun x hx u hu => ?_
      rw [if_neg Bool.false_ne_true, hu.holdOff hs (honce x hx).1 (honce x hx).2, queued]
end

section
/-! The arbiter: the order of the part's requests, what an event grants by the count of a processor access that waits,
and the waiting access at its grant (R56, R57, R150, R152, R155, R156). -/

namespace Sys2Proof.Machine

/-! ### The part's requests in their order (R155) -/

section
variable {s : State}

theorem State.anchorRequest_load {ws : List Word} (h : s.loader.load = some ws) :
    s.anchorRequest = some (.anchorRead ws.length false) := by
  simp [State.anchorRequest, h]

theorem State.anchorRequest_pickup {f : PickupFetch} {rest : List PickupFetch} (hl : s.loader.load = none)
    (hg : s.governed = true) (hp : s.loader.pickupList = f :: rest) :
    s.anchorRequest = some (.pickupRead (36 + 3 * f.pickup.val + s.loader.pickupGot.length) false) := by
  simp [State.anchorRequest, hl, hg, pickupHead, hp]

theorem State.anchorRequest_none (hl : s.loader.load = none) (hp : s.loader.pickupList = []) :
    s.anchorRequest = none := by
  simp [State.anchorRequest, hl, pickupHead, hp]

theorem State.partRequest_chestWrite {e : FifoEntry} {rest : List FifoEntry} (h : s.chest.fifo = e :: rest) :
    s.partRequest = some (.chestWrite e true) := by
  simp [State.partRequest, h]

theorem State.partRequest_fetch {r : FetchRequest} (hq : s.chest.fifo = []) (h : s.admission.request = some r) :
    s.partRequest = some (.fetchRead r.address r.discard) := by
  simp [State.partRequest, hq, h]

theorem State.partRequest_anchor {a : PortAccess} (hq : s.chest.fifo = []) (hr : s.admission.request = none)
    (h : s.anchorRequest = some a) : s.partRequest = some a := by
  simp [State.partRequest, hq, hr, h]

theorem State.partRequest_writeBack {b : WriteBack} {rest : List WriteBack} (hq : s.chest.fifo = [])
    (hr : s.admission.request = none) (ha : s.anchorRequest = none) (h : s.path.writeBacks = b :: rest) :
    s.partRequest = some (.writeBack (stopMaskWord b.division) b.mask) := by
  simp [State.partRequest, hq, hr, ha, h]

theorem State.partRequest_report (hq : s.chest.fifo = []) (hr : s.admission.request = none)
    (ha : s.anchorRequest = none) (h : s.path.writeBacks = []) : s.partRequest = s.report.request := by
  simp [State.partRequest, hq, hr, ha, h]

/-! ### The fetch ahead of the arbiter (R6) -/

/-- With the admission list empty no fetch begins (R6). -/
theorem State.fetches_idle (h : s.admission.list = []) : s.beginFetch.postFetch = s := by
  have begins : s.beginFetch = s := by simp [State.beginFetch, h]
  rw [begins]
  unfold State.postFetch
  rw [h]
  split
  · next heq => cases heq
  · rfl

/-- The begin of a fetch and its request are the admission unit's, and a request that stands is kept (R6). -/
theorem State.fetches_eq (s : State) : ∃ adm, s.beginFetch.postFetch = { s with admission := adm }
    ∧ ∀ r, s.admission.request = some r → adm.request = some r := by
  have begins : ∃ adm, s.beginFetch = { s with admission := adm } ∧ adm.request = s.admission.request := by
    unfold State.beginFetch
    split
    · exact ⟨_, rfl, rfl⟩
    · split <;> exact ⟨_, rfl, rfl⟩
  obtain ⟨adm, hb, hr⟩ := begins
  rw [hb]
  unfold State.postFetch
  split
  · split
    · next hc =>
      refine ⟨_, rfl, fun r h => ?_⟩
      simp [hr, h] at hc
    · exact ⟨adm, rfl, fun r h => hr.trans h⟩
  · exact ⟨adm, rfl, fun r h => hr.trans h⟩

end

/-! ### What an event grants (R155) -/

/-- The grant of a request other than a write-back: the access goes on the port, a processor access that waits on counts
it, and the admission fetch's request is made (R155). -/
theorem State.grant_counted {s : State} {a : PortAccess} (hn : ∀ n v, a ≠ .writeBack n v) :
    ∃ adm, s.countYield.grant a = { s with
      admission := adm,
      path := { s.path with
        port := some a,
        yieldCount := if s.path.waiting ≠ none then s.path.yieldCount + 1 else s.path.yieldCount } }
      ∧ ∀ n discard, a = .fetchRead n discard → adm.request = none := by
  have counted : s.countYield = { s with path := { s.path with
      yieldCount := if s.path.waiting ≠ none then s.path.yieldCount + 1 else s.path.yieldCount } } := by
    unfold State.countYield
    cases s.path.waiting <;> rfl
  rw [counted]
  cases a with
  | writeBack n v => exact absurd rfl (hn n v)
  | fetchRead n discard => exact ⟨_, rfl, fun _ _ _ => rfl⟩
  | _ => exact ⟨_, rfl, nofun⟩

/-- With the port free, and no processor access at its turn, what the part requests first is granted (R155). -/
theorem State.pump_grants {s : State} {a : PortAccess} (hp : s.path.port = none)
    (hw : s.path.waiting = none ∨ s.path.yieldCount < 2) (hn : ∀ n v, a ≠ .writeBack n v)
    (ha : s.beginFetch.postFetch.partRequest = some a) :
    ∃ adm wait, s.pump = { s with
      admission := adm,
      path := { s.path with
        port := some a,
        yieldCount := if s.path.waiting ≠ none then s.path.yieldCount + 1 else s.path.yieldCount },
      spaceWait := wait }
      ∧ ∀ n discard, a = .fetchRead n discard → adm.request = none := by
  obtain ⟨_, fetched, -⟩ := s.fetches_eq
  obtain ⟨adm, granted, made⟩ := State.grant_counted (s := s.beginFetch.postFetch) hn
  have arbitrated : s.beginFetch.postFetch.arbitrate = { s with
      admission := adm,
      path := { s.path with
        port := some a,
        yieldCount := if s.path.waiting ≠ none then s.path.yieldCount + 1 else s.path.yieldCount } } := by
    rw [State.arbitrate_part (by simpa using hp) (by simpa using hw) ha, State.grantPart_some ha hn, granted, fetched]
  exact ⟨adm, _, congrArg State.settleWait arbitrated, made⟩

/-- A write-back that is the first request holds the port free for its own row (R155; log entry 8). -/
theorem State.pump_holds {s : State} {n : Nat} {v : Word} (hp : s.path.port = none)
    (hw : s.path.waiting = none ∨ s.path.yieldCount < 2)
    (ha : s.beginFetch.postFetch.partRequest = some (.writeBack n v)) :
    ∃ adm wait, s.pump = { s with admission := adm, spaceWait := wait } := by
  obtain ⟨adm, fetched, -⟩ := s.fetches_eq
  have arbitrated : s.beginFetch.postFetch.arbitrate = { s with admission := adm } := by
    rw [State.arbitrate_part (by simpa using hp) (by simpa using hw) ha, ← fetched]
    unfold State.grantPart
    rw [ha]
  exact ⟨adm, _, congrArg State.settleWait arbitrated⟩

/-- The oldest write-back is granted (R156). -/
theorem exec_writeBackGrant {s : State} {b : WriteBack} {rest : List WriteBack} (hf : s.portFree)
    (hb : s.path.writeBacks = b :: rest)
    (hr : s.partRequest = some (.writeBack (stopMaskWord b.division) b.mask)) :
    exec .writeBackGrant s = .next { s with path := { s.path with
      port := some (.writeBack (stopMaskWord b.division) b.mask), writeBacks := rest } } := by
  show Host.Outcome.next s.grantWriteBack = _
  unfold State.grantWriteBack
  rw [hf.1, hr]
  dsimp only
  rw [State.countYield_idle s hf.2]
  simp only [State.grant, State.place, hb, List.tail_cons]

/-! ### The end of a chest write (R44) -/

/-- The head's write is in memory, its entry has left the FIFO, and the port is free (R44). -/
def State.headWritten (e : FifoEntry) (rest : List FifoEntry) (s : State) : State :=
  { s with
    path := { s.path with port := none },
    mem := s.mem.write e.address e.stored,
    chest := { s.chest with fifo := rest } }

theorem exec_chestWriteDone_head {s : State} {e : FifoEntry} {rest : List FifoEntry}
    (hp : s.path.port = some (.chestWrite e true)) (hq : s.chest.fifo = e :: rest) :
    exec .chestWriteDone s = .next (s.headWritten e rest).pump := by
  rw [exec_chestWriteDone hp]
  simp only [State.complete, State.finishChestWrite, State.store, hq, List.tail_cons, if_true]
  rfl

/-- With no processor access at its turn, the end of a chest write grants what the part requests first (R44, R155). -/
theorem chestWrite_grants {s : State} {e : FifoEntry} {rest : List FifoEntry} {a : PortAccess}
    (hp : s.path.port = some (.chestWrite e true)) (hq : s.chest.fifo = e :: rest)
    (hw : s.path.waiting = none ∨ s.path.yieldCount < 2) (hn : ∀ n v, a ≠ .writeBack n v)
    (ha : (s.headWritten e rest).beginFetch.postFetch.partRequest = some a) :
    ∃ t, exec .chestWriteDone s = .next t
      ∧ t.path = { s.path with
          port := some a,
          yieldCount := if s.path.waiting ≠ none then s.path.yieldCount + 1 else s.path.yieldCount }
      ∧ t.chest.fifo = rest ∧ t.mem = s.mem.write e.address e.stored
      ∧ ∀ n discard, a = .fetchRead n discard → t.admission.request = none := by
  obtain ⟨adm, wait, granted, made⟩ := State.pump_grants (s := s.headWritten e rest) rfl hw hn ha
  exact ⟨_, (exec_chestWriteDone_head hp hq).trans (congrArg _ granted), rfl, rfl, rfl, made⟩

/-! ### The waiting processor access at its grant (R150, R155) -/

/-- A write that is not dropped goes on the port, inverted where its decode has it so (R57, R150). -/
theorem State.grantProcessor_kept {s : State} {n : Nat} (v : Word) (hd : s.dropped n = none) :
    s.grantProcessor (.write n v) = s.takeWaiting.place (.procWrite n (throughPolarity (s.inverts n) v)) := by
  simp only [State.grantProcessor, hd]

/-- A write that waited has been dropped: it leaves the arbiter, and READY is active (R56, R152, R155). -/
def State.waitDropped (n : Nat) (v : Word) (r : DropRegion) (s : State) : State :=
  { s with
    chest := { s.chest with protectSeen := true },
    raised := s.raised ++ [s.reported r.raisedBy (.protectDrop n v r)],
    path := { s.path with waiting := none, yieldCount := 0, ready := true } }

/-- The port that a dropped write leaves free goes to the chest write behind it, or without a request to no one
(R155). -/
theorem State.grantProcessor_dropped {s : State} {n : Nat} {r : DropRegion} (v : Word) (hd : s.dropped n = some r)
    (hp : s.path.port = none) :
    ∃ adm wait next, s.grantProcessor (.write n v) = { s.waitDropped n v r with
        admission := adm, spaceWait := wait, path := { (s.waitDropped n v r).path with port := next } }
      ∧ (∀ f more, s.chest.fifo = f :: more → next = some (.chestWrite f true))
      ∧ (s.partRequest = none → next = none) := by
  have dropped : s.grantProcessor (.write n v) = (s.waitDropped n v r).grantPart := by
    simp only [State.grantProcessor, hd]
    rw [State.drop_eq (s := s.takeWaiting) v hd]
    rfl
  rw [dropped]
  obtain ⟨⟨adm, next, wait, granted⟩, -⟩ := trafficFrame_grantPart (s.waitDropped n v r) rfl
  have port : (s.waitDropped n v r).grantPart.path.port = next := by rw [granted]
  refine ⟨adm, wait, next, granted, fun f more hq => ?_, fun hr => ?_⟩
  · rw [← port, State.grantPart_some (State.partRequest_chestWrite (by exact hq)) (by exact nofun),
      State.countYield_idle _ rfl]
    rfl
  · rw [← port]
    unfold State.grantPart
    rw [show (s.waitDropped n v r).partRequest = none from hr]
    exact hp

/-- The part requests nothing, with these entries left in the FIFO (R155). -/
def State.nothingBehind (rest : List FifoEntry) (s : State) : Prop :=
  rest = [] ∧ s.admission.request = none ∧ s.admission.list = [] ∧ s.loader.load = none
    ∧ s.loader.pickupList = [] ∧ s.path.writeBacks = [] ∧ s.report.task = none

theorem State.nothingBehind.partRequest {s : State} {rest : List FifoEntry} (h : s.nothingBehind rest)
    (e : FifoEntry) : (s.headWritten e rest).partRequest = none := by
  obtain ⟨hrest, hreq, -, hload, hpick, hwb, htask⟩ := h
  refine (State.partRequest_report (s := s.headWritten e rest) hrest hreq
    (State.anchorRequest_none hload hpick) hwb).trans ?_
  simp [State.headWritten, ReportWriter.request, htask]

section
variable {s : State} {e : FifoEntry} {rest : List FifoEntry} {n : Nat} {v : Word}
  (hp : s.path.port = some (.chestWrite e true)) (hq : s.chest.fifo = e :: rest)
  (hy : s.path.yieldCount = 2 ∨ s.nothingBehind rest)
include hp hq hy

/-- At a count of 2, or with the part requesting nothing, the end of a chest write grants the access that waits; a fetch
may begin before it (R6, R155). -/
theorem chestWrite_due {a : ProcAccess} (hw : s.path.waiting = some a) :
    ∃ adm, exec .chestWriteDone s
        = .next (State.grantProcessor a { s.headWritten e rest with admission := adm }).settleWait
      ∧ (s.admission.list = [] → adm = s.admission) := by
  obtain ⟨adm, due, idle⟩ := State.pump_due (u := s.headWritten e rest) rfl hw hy
  exact ⟨adm, (exec_chestWriteDone_head hp hq).trans (congrArg _ due), idle⟩

theorem chestWrite_due_read (hw : s.path.waiting = some (.read n)) :
    ∃ adm wait, exec .chestWriteDone s = .next { s.headWritten e rest with
      admission := adm,
      spaceWait := wait,
      path := { s.path with port := some (.procRead n (s.inverts n)), waiting := none, yieldCount := 0 } } := by
  obtain ⟨adm, ht, -⟩ := chestWrite_due hp hq hy hw
  exact ⟨adm, _, ht⟩

theorem chestWrite_due_write (hw : s.path.waiting = some (.write n v)) (hd : s.dropped n = none) :
    ∃ adm wait, exec .chestWriteDone s = .next { s.headWritten e rest with
      admission := adm,
      spaceWait := wait,
      path := { s.path with
        port := some (.procWrite n (throughPolarity (s.inverts n) v)), waiting := none, yieldCount := 0 } } := by
  obtain ⟨adm, ht, -⟩ := chestWrite_due hp hq hy hw
  rw [State.grantProcessor_kept v (by exact hd)] at ht
  exact ⟨adm, _, ht⟩

theorem chestWrite_due_dropped {r : DropRegion} (hw : s.path.waiting = some (.write n v)) (hd : s.dropped n = some r) :
    ∃ adm wait next, exec .chestWriteDone s = .next { s.headWritten e rest with
        admission := adm,
        spaceWait := wait,
        chest := { s.chest with fifo := rest, protectSeen := true },
        raised := s.raised ++ [s.reported r.raisedBy (.protectDrop n v r)],
        path := { s.path with port := next, waiting := none, yieldCount := 0, ready := true } }
      ∧ (∀ f more, rest = f :: more → next = some (.chestWrite f true))
      ∧ (s.nothingBehind rest → next = none) := by
  obtain ⟨adm, ht, idle⟩ := chestWrite_due hp hq hy hw
  obtain ⟨adm', wait, next, granted, behind, free⟩ :=
    State.grantProcessor_dropped (s := { s.headWritten e rest with admission := adm }) v hd rfl
  rw [granted] at ht
  refine ⟨adm', _, next, ht, behind, fun alone => free ?_⟩
  obtain ⟨-, -, hlist, -⟩ := id alone
  rw [idle hlist]
  exact alone.partRequest e

end

end Sys2Proof.Machine

open Sys2Proof Sys2Proof.Machine

/-- Settles O35: the next request of the part or the waiting access, by the count; what the access finds at its grant;
and the grant of a write-back. -/
theorem arbiterGrants : Obligations.ArbiterGrants := by
  refine ⟨fun e f rest a s hp hq hw => ⟨fun hy => ?_, fun hy => ?_⟩, fun e s granted hp hq hw hgranted => ?_,
    fun e rest s done inverted alone left hp hq halone hy hinv hdone hleft => ?_,
    fun b rest s hf hq hr hl hpl hb => ?_⟩
  · obtain ⟨_, fetched, -⟩ := (s.headWritten e (f :: rest)).fetches_eq
    obtain ⟨t, ht, hpath, hfifo, hmem, -⟩ := chestWrite_grants (a := .chestWrite f true) hp hq (.inr hy) nofun
      (fetched ▸ State.partRequest_chestWrite (s := { s.headWritten e (f :: rest) with admission := _ }) rfl)
    exact ⟨t, ht, by rw [hpath], by simp [hpath, hw], by rw [hpath]; exact hw, hmem, hfifo⟩
  · obtain ⟨adm, wait, ht⟩ := chestWrite_due_read hp hq (.inl hy) hw
    exact ⟨_, ht, ⟨_, rfl⟩, rfl, rfl, rfl, rfl⟩
  · have hcount := hw.imp_right And.right
    have grants (a : PortAccess) (hn : ∀ n v, a ≠ .writeBack n v)
        (ha : (s.headWritten e []).beginFetch.postFetch.partRequest = some a) :
        ∃ t, granted (some a) t ∧ ∀ n discard, a = .fetchRead n discard → t.admission.request = none := by
      obtain ⟨t, ht, hpath, hfifo, hmem, made⟩ := chestWrite_grants hp hq hcount hn ha
      exact ⟨t, (hgranted _ _).2 ⟨ht, by rw [hpath], hfifo, hmem, by rw [hpath], by rw [hpath], by simp [hpath]⟩, made⟩
    refine ⟨fun r hr => ?_, fun hr hlist => ?_⟩
    · obtain ⟨adm, fetched, kept⟩ := (s.headWritten e []).fetches_eq
      obtain ⟨t, ht, made⟩ := grants (.fetchRead r.address r.discard) nofun
        (fetched ▸ State.partRequest_fetch (s := { s.headWritten e [] with admission := adm }) rfl (kept r hr))
      exact ⟨t, ht, made _ _ rfl⟩
    · have idle := State.fetches_idle (s := s.headWritten e []) hlist
      have grants (a : PortAccess) (hn : ∀ n v, a ≠ .writeBack n v) (ha : (s.headWritten e []).partRequest = some a) :
          ∃ t, granted (some a) t :=
        (grants a hn (by rw [idle]; exact ha)).imp fun _ => And.left
      refine ⟨fun ws hload => ?_, fun hload hconf f rest hpick => ?_,
        fun hload hpick => ⟨fun hwb => ?_, fun task x rest hwb htask hwords => ?_⟩⟩
      · exact grants _ nofun (State.partRequest_anchor rfl hr (State.anchorRequest_load hload))
      · exact grants _ nofun (State.partRequest_anchor rfl hr
          (State.anchorRequest_pickup hload ((State.governed_iff _).2 hconf) hpick))
      · obtain ⟨b, more, hb⟩ := List.exists_cons_of_ne_nil hwb
        obtain ⟨adm, wait, held⟩ := State.pump_holds (s := s.headWritten e []) rfl hcount (by
          rw [idle]
          exact State.partRequest_writeBack rfl hr (State.anchorRequest_none hload hpick) hb)
        exact ⟨_, (hgranted _ _).2
          ⟨(exec_chestWriteDone_head hp hq).trans (congrArg _ held), rfl, rfl, rfl, rfl, rfl, rfl⟩⟩
      · refine grants _ nofun ((State.partRequest_report (s := s.headWritten e []) rfl hr
          (State.anchorRequest_none hload hpick) hwb).trans ?_)
        simp [State.headWritten, ReportWriter.request, htask, hwords]
  · subst hdone halone
    have inverts {n : Nat} (h : inverted n) : s.inverts n = true := State.inverts_iff.2 (hinv n ▸ h)
    have passes {n : Nat} (h : ¬ inverted n) : s.inverts n = false :=
      Bool.eq_false_iff.2 fun ht => h (hinv n ▸ State.inverts_iff.1 ht)
    refine ⟨fun n hw => ?_, fun n v region guarded hw hregion hguarded => ?_⟩
    · obtain ⟨adm, wait, ht⟩ := chestWrite_due_read hp hq hy hw
      refine ⟨fun h => ?_, fun h => ?_⟩
      · rw [inverts h] at ht
        exact ⟨_, by rw [hleft]; exact ⟨ht, adm, wait, rfl⟩⟩
      · rw [passes h] at ht
        exact ⟨_, by rw [hleft]; exact ⟨ht, adm, wait, rfl⟩⟩
    · subst hregion hguarded
      refine ⟨fun hlog hstatus hopen => ?_, fun b r hcause => ?_⟩
      · have kept : s.dropped n = none := Option.eq_none_iff_forall_ne_some.2 fun r hd => by
          rcases State.dropped_iff.1 hd with ⟨hr, hg, -⟩ | ⟨hr, -⟩ | ⟨hr, -⟩
          · exact hopen ⟨hr, hg⟩
          · exact hlog hr
          · exact hstatus hr
        obtain ⟨adm, wait, ht⟩ := chestWrite_due_write hp hq hy hw kept
        refine ⟨fun h => ?_, fun h => ?_⟩
        · rw [inverts h] at ht
          exact ⟨_, by rw [hleft]; exact ⟨ht, adm, wait, rfl⟩⟩
        · rw [passes h] at ht
          exact ⟨_, by rw [hleft]; exact ⟨ht, adm, wait, rfl⟩⟩
      · have cause : s.dropped n = some r ∧ b = r.raisedBy := by
          rw [State.dropped_iff]
          rcases hcause with ⟨⟨hr, hg⟩, rfl, rfl⟩ | ⟨hr, rfl, rfl⟩ | ⟨hr, rfl, rfl⟩
          · exact ⟨.inl ⟨hr, hg, rfl⟩, rfl⟩
          · exact ⟨.inr (.inl ⟨hr, rfl⟩), rfl⟩
          · exact ⟨.inr (.inr ⟨hr, rfl⟩), rfl⟩
        obtain ⟨hd, rfl⟩ := cause
        obtain ⟨adm, wait, next, ht, behind⟩ := chestWrite_due_dropped hp hq hy hw hd
        exact ⟨_, next, by rw [hleft]; exact ⟨ht, adm, wait, rfl⟩, behind⟩
  · exact exec_writeBackGrant hf hb (State.partRequest_writeBack hq hr (State.anchorRequest_none hl hpl) hb)
end

section
/-! What an event of one pickup brings to the rest of the part: its report, the expiry lag (R70, R80, R81, R102). -/

namespace Sys2Proof.Machine

/-- The expiry lag under an installed configuration (R102). -/
theorem State.recomputeLag_installed {s : State} {i : Installed} (hi : s.loader.installed = some i) :
    s.recomputeLag =
      { s with matcher := { s.matcher with lag := some (expiryLag s.link.largestDelay i.mergeSpan) } } := by
  unfold State.recomputeLag
  rw [hi]

/-- An event of pickup k that accepts no onset: the pickup's entry, the PICKUP report, if any, and the lag (R70, R102). -/
theorem State.applyPickup_installed {s : State} {i : Installed} {r : PickupResult} {reports : List Raised}
    (k : PickupNo) (hi : s.loader.installed = some i) (ho : r.onset = none)
    (hr : reports = match r.reason with
      | none => []
      | some x => [s.reported .link (.pickup k s.link.pickups[k].state r.pickup.state x)]) :
    s.applyPickup k r =
      { s with
        link := { s.link with pickups := s.link.pickups.set k r.pickup },
        matcher := { s.matcher with
          lag := some (expiryLag
            (Link.largestDelay { s.link with pickups := s.link.pickups.set k r.pickup }) i.mergeSpan) },
        raised := s.raised ++ reports } := by
  subst hr
  unfold State.applyPickup
  rw [ho]
  cases r.reason with
  | none =>
    dsimp only
    rw [State.recomputeLag_installed (i := i) (by exact hi)]
    simp [State.takeOnset]
  | some x =>
    dsimp only
    rw [State.raise_installed (i := i) _ _ (by exact hi), State.recomputeLag_installed (i := i) (by exact hi)]
    simp [State.takeOnset, State.reported]

/-- A timeout that is due silences the pickup (R80, R81). -/
theorem Pickup.takeTimeout_due {p : Pickup} {h : Handshake} (hh : p.handshake = some h) (hd : h.timeoutDue = true) :
    p.takeTimeout = PickupResult.because
      { entry := p.entry, state := .silent, parityRun := 0, stuckRun := 0, goodRun := 0, lastLiveness := none,
        lastCode := none, candidate := none, handshake := none, quiet := p.quiet,
        lst := { present := false, value := 0 } } .timeout := by
  unfold Pickup.takeTimeout
  rw [hh]
  exact if_pos hd

/-- Without a timeout due nothing becomes of the pickup (log entry 27). -/
theorem Pickup.takeTimeout_none {p : Pickup} (h : ∀ h, p.handshake = some h → h.timeoutDue = false) :
    p.takeTimeout = PickupResult.plain p := by
  unfold Pickup.takeTimeout
  split
  · next x hx => exact if_neg (by simp [h x hx])
  · rfl

end Sys2Proof.Machine

open Sys2Proof Sys2Proof.Machine

/-- Settles O44: the timeout that is due, and what an event of a pickup brings. -/
theorem timeoutSilencesPickup : Obligations.TimeoutSilencesPickup := by
  rintro k h i p q l s hi rfl hh hd rfl rfl
  show Host.Outcome.next (s.takeTimeout k) = _
  unfold State.takeTimeout
  rw [Pickup.takeTimeout_due hh hd, State.applyPickup_installed k hi rfl rfl]
  rfl
end

section
/-! The setup handshake by its phases, and a slot of a pickup in CONFIGURING (R62, R63, R66 to R68, R75 to R81). -/

namespace Sys2Proof.Machine

/-! ### The handshake's step -/

/-- A frame of the current value without its acknowledgement (R81; log entry 27). -/
theorem Handshake.countFrame_eq (h : Handshake) : h.countFrame =
    if h.frames + 1 < 50 then { h with frames := h.frames + 1 } else { h with timeoutDue := true } := by
  unfold Handshake.countFrame
  by_cases hf : h.frames + 1 < 50
  · exact (if_neg (Nat.not_le.2 hf)).trans (if_pos hf).symm
  · exact (if_pos (Nat.not_lt.1 hf)).trans (if_neg hf).symm

/-- The phases of a message in which an ack inactive can abort it (R80). -/
def Phase.acked (x : Phase) : Prop := x = .awaiting ∨ x = .sending ∨ x = .gap

/-- Ack inactive re-arms, or aborts; in GAP the frame is not counted (R76 to R78, R80). -/
theorem Pickup.handshakeGood_inactive (p : Pickup) {h : Handshake} (hp : h.phase.acked) :
    p.handshakeGood h false = p.inactiveAck h (h.phase != .gap) := by
  unfold Pickup.handshakeGood
  rcases hp with hp | hp | hp <;> rw [hp] <;> rfl

/-- The second ack inactive in a row behind an acknowledged value aborts the message (R80; log entry 16). -/
theorem Pickup.inactiveAck_aborts (p : Pickup) {h : Handshake} (counted : Bool) (ha : h.ackedOnce = true)
    (hi : h.inactive = 1) : p.inactiveAck h counted = PickupResult.because p.enterSilent .abort :=
  if_pos (by simp [Handshake.aborts, Handshake.inactiveAck, ha, hi])

/-- Any other ack inactive re-arms into SENDING, and counts the frame that carried the value (R76 to R78, R81). -/
theorem Pickup.inactiveAck_rearms (p : Pickup) {h : Handshake} (counted : Bool)
    (ha : h.ackedOnce = false ∨ h.inactive = 0) : p.inactiveAck h counted = PickupResult.plain (p.withHandshake
      { (if counted then h.countFrame else h) with
        phase := .sending, active := 0, inactive := min 2 (h.inactive + 1) }) := by
  have going : ¬ ({ h.inactiveAck with phase := .sending } : Handshake).aborts = true := by
    rcases ha with ha | ha <;> simp [Handshake.aborts, Handshake.inactiveAck, ha]
  refine (if_neg going).trans ?_
  cases counted with
  | false => rfl
  | true =>
    simp only [if_true, Handshake.countFrame_eq, Handshake.inactiveAck]
    split <;> rfl

/-- LEAD-IN and ENDING go by the quiet count alone (R75, R79). -/
theorem Pickup.handshake_quiet (p : Pickup) {h : Handshake} (ack : Bool) (hp : h.phase = .leadIn ∨ h.phase = .ending) :
    p.handshakeGood h ack = p.quietPhase h ∧ p.handshakeParity h = p.quietPhase h := by
  unfold Pickup.handshakeGood Pickup.handshakeParity
  rcases hp with hp | hp <;> rw [hp] <;> exact ⟨rfl, rfl⟩

theorem Pickup.quietPhase_leadIn {p : Pickup} {h : Handshake} (hp : h.phase = .leadIn) : p.quietPhase h =
    if p.quiet = 2 then PickupResult.plain (p.withHandshake { h with phase := .awaiting })
    else PickupResult.plain p :=
  if_neg (by simp [hp])

theorem Pickup.quietPhase_ending {p : Pickup} {h : Handshake} (hp : h.phase = .ending) : p.quietPhase h =
    if p.quiet = 2 then PickupResult.because p.listen .setupDone else PickupResult.plain p :=
  if_pos hp

/-! ### What the LST slot carries next (R63) -/

theorem Pickup.lstSettled_idle {p : Pickup} (h : p.state ≠ .configuring) :
    p.lstSettled = { present := false, value := 0 } := by
  unfold Pickup.lstSettled
  split
  · contradiction
  · rfl

theorem Pickup.lstSettled_between {p : Pickup} {h : Handshake} (hh : p.handshake = some h)
    (hp : h.phase = .leadIn ∨ h.phase = .gap ∨ h.phase = .ending) :
    p.lstSettled = { present := false, value := 0 } := by
  unfold Pickup.lstSettled
  rw [hh]
  cases p.state <;> rcases hp with hp | hp | hp <;> simp only [hp]

theorem Pickup.lstSettled_value {p : Pickup} {h : Handshake} (hs : p.state = .configuring) (hh : p.handshake = some h)
    (hp : h.phase = .awaiting ∨ h.phase = .sending) :
    p.lstSettled = { present := true, value := p.entry.value h.index } := by
  unfold Pickup.lstSettled
  rw [hs, hh]
  rcases hp with hp | hp <;> simp only [hp]

/-! ### A slot in its parts (R60, R61, R66, R67) -/

/-- Only a commit changes the settings: the handshake keeps them. -/
theorem Pickup.handshakeGood_entry (p : Pickup) (h : Handshake) (ack : Bool) :
    (p.handshakeGood h ack).pickup.entry = p.entry := by
  unfold Pickup.handshakeGood Pickup.quietPhase Pickup.inactiveAck
  dsimp only
  repeat' split
  all_goals rfl

theorem Pickup.handshakeParity_entry (p : Pickup) (h : Handshake) : (p.handshakeParity h).pickup.entry = p.entry := by
  unfold Pickup.handshakeParity Pickup.quietPhase
  repeat' split
  all_goals rfl

theorem Pickup.onsetTests_entry (k : PickupNo) (now : Frame) (p : Pickup) (before : Option Nat) (code : Nat) :
    (p.onsetTests k now before code).pickup.entry = p.entry := by
  unfold Pickup.onsetTests
  repeat' split
  all_goals rfl

theorem Pickup.recover_entry (p : Pickup) : p.recover.entry = p.entry := by
  unfold Pickup.recover
  dsimp only
  split <;> rfl

theorem Pickup.goodSlot_entry (k : PickupNo) (now : Frame) (p : Pickup) (code : Nat) (ack : Bool) (liveness : Nat) :
    (p.goodSlot k now code ack liveness).pickup.entry = p.entry := by
  unfold Pickup.goodSlot Pickup.recoveryTest
  dsimp only
  repeat' split
  · exact Pickup.recover_entry _
  · rfl
  · rfl
  · rfl
  · exact Pickup.handshakeGood_entry _ _ _
  · exact Pickup.onsetTests_entry _ _ _ _ _

theorem Pickup.parityFailure_entry (p : Pickup) : p.parityFailure.pickup.entry = p.entry := by
  unfold Pickup.parityFailure
  dsimp only
  repeat' split
  · rfl
  · rfl
  · exact Pickup.handshakeParity_entry _ _
  · rfl

/-- A slot event keeps the pickup's settings (R64). -/
theorem Pickup.slotEvent_entry (k : PickupNo) (now : Frame) (bits : BitVec 8) (p : Pickup) :
    (p.slotEvent k now bits).pickup.entry = p.entry := by
  unfold Pickup.slotEvent
  dsimp only
  repeat' split
  · rfl
  · exact Pickup.goodSlot_entry _ _ _ _ _ _
  · exact Pickup.parityFailure_entry _

/-- What the LST slot carries next goes by the state and the phase that the slot leaves (R63). -/
theorem Pickup.slotEvent_lst (k : PickupNo) (now : Frame) (bits : BitVec 8) (p : Pickup) :
    (p.slotEvent k now bits).pickup.lst = (p.slotEvent k now bits).pickup.lstSettled := rfl

/-- A good slot of a monitored pickup (R66). -/
theorem Pickup.slotEvent_good {p : Pickup} (k : PickupNo) (now : Frame) {bits : BitVec 8}
    (hm : p.monitored = true) (hg : slotGood bits = true) : p.slotEvent k now bits =
      (let r := ({ p with quiet := p.quietAfter } : Pickup).goodSlot k now (slotCode bits) (slotAck bits)
        (slotLiveness bits)
      { r with pickup := r.pickup.settle }) := by
  have hm' : ({ p with quiet := p.quietAfter } : Pickup).monitored = true := hm
  simp only [Pickup.slotEvent, hm', Bool.not_true, Bool.false_eq_true, if_false, hg, if_true]

/-- A parity failure of a monitored pickup (R67). -/
theorem Pickup.slotEvent_parity {p : Pickup} (k : PickupNo) (now : Frame) {bits : BitVec 8}
    (hm : p.monitored = true) (hg : slotGood bits = false) : p.slotEvent k now bits =
      (let r := ({ p with quiet := p.quietAfter } : Pickup).parityFailure
      { r with pickup := r.pickup.settle }) := by
  have hm' : ({ p with quiet := p.quietAfter } : Pickup).monitored = true := hm
  simp only [Pickup.slotEvent, hm', Bool.not_true, Bool.false_eq_true, if_false, hg]

/-- The stuck run by the liveness behind the slot (R62). -/
theorem stuckRunAfter_class (run : Nat) (last : Option Nat) (now : Nat) : stuckRunAfter run (classLiveness last now) =
    match last with
    | none => run
    | some l => if now = (l + 1) % 4 then 0 else min 4 (run + 1) := by
  unfold classLiveness
  cases last with
  | none => rfl
  | some l => dsimp only; split <;> rfl

/-- The health values after a parity failure, up to the eighth in a row (R67). -/
theorem Pickup.noteParityFailure_handshake {p : Pickup} {h : Handshake} (hh : p.handshake = some h)
    (hr : p.parityRun + 1 ≤ 8) : p.noteParityFailure =
      { p with
        parityRun := p.parityRun + 1, stuckRun := 0, goodRun := 0, lastLiveness := none, lastCode := none,
        candidate := none, handshake := some { h with active := 0, inactive := 0 } } := by
  simp only [Pickup.noteParityFailure, Config.parityLimit, Nat.min_eq_right hr, hh, Option.map_some]

/-- A good slot faults the pickup by two codes of 15 in a row (R68). -/
theorem Pickup.goodSlot_coded {p : Pickup} (k : PickupNo) (now : Frame) {code : Nat} (ack : Bool) (liveness : Nat)
    (hs : p.state ≠ .fault) (hc : code = 15 ∧ p.lastCode = some 15) :
    p.goodSlot k now code ack liveness = PickupResult.because (p.noteGood code liveness).enterFault .faultCode := by
  unfold Pickup.goodSlot
  exact (if_neg hs).trans (if_pos hc)

/-- A good slot faults the pickup by the fourth stuck liveness (R62, R68). -/
theorem Pickup.goodSlot_stuck {p : Pickup} (k : PickupNo) (now : Frame) {code : Nat} (ack : Bool) {liveness : Nat}
    (hs : p.state ≠ .fault) (hc : ¬ (code = 15 ∧ p.lastCode = some 15))
    (hst : (p.noteGood code liveness).stuckRun = 4) :
    p.goodSlot k now code ack liveness = PickupResult.because (p.noteGood code liveness).enterFault .stuck := by
  unfold Pickup.goodSlot
  exact (if_neg hs).trans ((if_neg hc).trans (if_pos hst))

/-- Any other good slot takes the handshake's step (R66, R75 to R80). -/
theorem Pickup.goodSlot_handshake {p : Pickup} {h : Handshake} (k : PickupNo) (now : Frame) {code : Nat} (ack : Bool)
    {liveness : Nat} (hs : p.state ≠ .fault) (hc : ¬ (code = 15 ∧ p.lastCode = some 15))
    (hst : (p.noteGood code liveness).stuckRun ≠ 4) (hh : p.handshake = some h) :
    p.goodSlot k now code ack liveness = (p.noteGood code liveness).handshakeGood h ack := by
  unfold Pickup.goodSlot
  refine (if_neg hs).trans ((if_neg hc).trans ((if_neg hst).trans ?_))
  rw [hh]

theorem Pickup.parityFailure_faults {p : Pickup} (hs : p.state ≠ .fault) (hr : p.parityRun + 1 = 8) :
    p.parityFailure = PickupResult.because p.noteParityFailure.enterFault .parity := by
  unfold Pickup.parityFailure
  refine (if_neg hs).trans (if_pos ?_)
  simp [Pickup.noteParityFailure, Config.parityLimit, hr]

/-- A parity failure below the eighth in a row takes the handshake's step without an ack (R67). -/
theorem Pickup.parityFailure_counts {p : Pickup} (hs : p.state ≠ .fault) (hr : p.parityRun + 1 < 8) :
    p.parityFailure = match p.noteParityFailure.handshake with
      | some h => p.noteParityFailure.handshakeParity h
      | none => PickupResult.plain p.noteParityFailure := by
  unfold Pickup.parityFailure
  refine (if_neg hs).trans (if_neg ?_)
  simp only [Pickup.noteParityFailure, Config.parityLimit]
  omega

end Sys2Proof.Machine

open Sys2Proof Sys2Proof.Machine

/-- Settles O43: the handshake's step by its phase, and the slot that takes its step or faults the pickup. -/
theorem handshakeInSending : Obligations.HandshakeInSending := by
  rintro p h counted hcounted
  rw [← Handshake.countFrame_eq] at hcounted
  subst hcounted
  refine ⟨fun hp => ⟨fun ha hc => ?_, fun ha hc => ?_, fun ha hf => ?_, fun ha hf => ?_⟩, fun hp => ?_, fun hp => ?_,
    fun hp => ⟨fun ha hi => ?_, fun ha => ?_⟩, fun ack hp => ⟨fun hq => ?_, fun hq => ?_⟩,
    fun ack hp => ⟨fun hq => ?_, fun hq => ?_⟩, fun hp => ?_, fun hp => ?_, ?_⟩
  · simp [Pickup.handshakeGood, hp, ha, Handshake.acknowledge, hc, Pickup.withHandshake, PickupResult.plain]
  · simp [Pickup.handshakeGood, hp, ha, Handshake.acknowledge, Nat.not_lt.2 hc, Pickup.withHandshake,
      PickupResult.plain]
  · simp [Pickup.handshakeGood, hp, ha, Handshake.countFrame_eq, hf, Pickup.withHandshake, PickupResult.plain]
  · simp [Pickup.handshakeGood, hp, ha, Handshake.countFrame_eq, Nat.not_lt.2 hf, Pickup.withHandshake,
      PickupResult.plain]
  · simp only [Pickup.handshakeGood, hp, if_true, Handshake.countFrame_eq]
    split <;> rfl
  · simp [Pickup.handshakeGood, hp, Pickup.withHandshake, PickupResult.plain]
  · rw [p.handshakeGood_inactive hp, p.inactiveAck_aborts _ ha hi]
    exact ⟨rfl, rfl, rfl, rfl, rfl, rfl, rfl, rfl⟩
  · rw [p.handshakeGood_inactive hp, p.inactiveAck_rearms _ ha]
    rcases hp with hp | hp | hp <;> simp [hp, PickupResult.plain, Pickup.withHandshake]
  · obtain ⟨good, parity⟩ := p.handshake_quiet ack (.inl hp)
    rw [good, parity, Pickup.quietPhase_leadIn hp, if_pos hq]
    exact ⟨rfl, rfl⟩
  · obtain ⟨good, parity⟩ := p.handshake_quiet ack (.inl hp)
    rw [good, parity, Pickup.quietPhase_leadIn hp, if_neg hq]
    exact ⟨rfl, rfl⟩
  · obtain ⟨good, parity⟩ := p.handshake_quiet ack (.inr hp)
    rw [good, parity, Pickup.quietPhase_ending hp, if_pos hq]
    exact ⟨rfl, rfl⟩
  · obtain ⟨good, parity⟩ := p.handshake_quiet ack (.inr hp)
    rw [good, parity, Pickup.quietPhase_ending hp, if_neg hq]
    exact ⟨rfl, rfl⟩
  · rcases hp with hp | hp <;> simp [Pickup.handshakeParity, hp, PickupResult.plain, Pickup.withHandshake]
  · simp [Pickup.handshakeParity, hp, PickupResult.plain, Pickup.withHandshake]
  · rintro k now bits r step good failed quiet stuck coded hs hh rfl rfl hstuck rfl rfl rfl
    have monitored : p.monitored = true := by simp [Pickup.monitored, hs]
    have sound : ({ p with quiet := p.quietAfter } : Pickup).state ≠ .fault := by simp [hs]
    have run : (({ p with quiet := p.quietAfter } : Pickup).noteGood (slotCode bits) (slotLiveness bits)).stuckRun
        = stuck := (stuckRunAfter_class _ _ _).trans hstuck.symm
    subst run
    refine ⟨fun hg hc hst hstep => ?_, fun hg hf => ?_, fun hg hr hstep => ?_, fun hg hr => ?_, fun h => ?_,
      fun g hr hg => ⟨fun hp => ?_, fun hp => ?_⟩⟩
    · rw [Pickup.slotEvent_good k now monitored hg, Pickup.goodSlot_handshake k now _ sound hc hst hh, hstep]
      rfl
    · rw [Pickup.slotEvent_good k now monitored hg]
      by_cases hc : slotCode bits = 15 ∧ p.lastCode = some 15
      · rw [Pickup.goodSlot_coded k now _ _ sound hc]
        exact ⟨fun _ => rfl, fun h => absurd hc h, rfl, rfl⟩
      · rw [Pickup.goodSlot_stuck k now _ sound hc (hf.resolve_left hc)]
        exact ⟨fun h => absurd h hc, fun _ => rfl, rfl, rfl⟩
    · rw [Pickup.slotEvent_parity k now monitored hg, Pickup.parityFailure_counts sound hr,
        Pickup.noteParityFailure_handshake (h := h) (by exact hh) (by exact hr.le), hstep]
      rfl
    · rw [Pickup.slotEvent_parity k now monitored hg, Pickup.parityFailure_faults sound hr,
        Pickup.noteParityFailure_handshake (h := h) (by exact hh) (by exact hr.le)]
      exact ⟨rfl, rfl, rfl⟩
    · exact Pickup.lstSettled_idle h
    · exact Pickup.lstSettled_between hg hp
    · rw [Pickup.slotEvent_lst, Pickup.lstSettled_value hr hg hp, Pickup.slotEvent_entry]
      exact ⟨rfl, fun h => by rw [h]; rfl, fun h => by rw [h]; rfl, fun h => by rw [h]; rfl, fun h => by rw [h]; rfl⟩
end

section
/-! A slot taken whole: its fields, what it does to a pickup by its state, and the accepted onset at the fuser (R59 to
R63, R66 to R73, R87, R88, R102, R181). -/

namespace Sys2Proof.Machine

/-! ### The slot's fields (R61, R181) -/

theorem slotCode_eq (bits : BitVec 8) : slotCode bits = bits.toNat / 16 := by
  have := bits.isLt
  unfold slotCode slotField
  omega

theorem slotAck_iff (bits : BitVec 8) : slotAck bits = true ↔ bits.toNat / 8 % 2 = 1 := by
  simp [slotAck, slotField]

theorem slotLiveness_eq (bits : BitVec 8) : slotLiveness bits = bits.toNat / 2 % 4 := rfl

/-- A bit of the slot counts when it is a one. -/
theorem slotField_one (bits : BitVec 8) (j : Nat) : slotField bits j 1 = if bits.getLsbD j then 1 else 0 := by
  unfold slotField
  rw [BitVec.getLsbD, Nat.testBit_eq_decide_div_mod_eq]
  simp only [decide_eq_true_eq]
  split <;> omega

theorem slotOnes_eq (bits : BitVec 8) : slotOnes bits = (List.finRange 8).countP (fun j => bits.getLsbD j.val) := by
  unfold slotOnes
  simp [slotField_one, List.finRange_succ, List.countP_cons, List.range_succ, Nat.add_assoc]
  omega

theorem slotGood_iff (bits : BitVec 8) :
    slotGood bits = true ↔ (List.finRange 8).countP (fun j => bits.getLsbD j.val) % 2 = 1 := by
  rw [← slotOnes_eq, slotGood, beq_iff_eq]

/-! ### LST and LFS by bit times (R59, R60, R181) -/

/-- The LST level of bit time 8k + j is bit j of what slot k carries, the first bit time being the most significant. -/
theorem Link.lstLevel_eq (l : Link) {b : Fin 96} {k : PickupNo} {j : Nat} (hj : j < 8) (hb : b.val = 8 * k.val + j) :
    l.lstLevel b = (l.pickups[k]).lst.bits.getMsbD j := by
  have slot : b.val / 8 = k.val := by omega
  have time : b.val % 8 = j := by omega
  unfold Link.lstLevel
  simp only [slot, time, Fin.getElem_fin]

theorem LstSlot.bits_first (x : LstSlot) : x.bits.getMsbD 0 = x.present := by
  unfold LstSlot.bits
  simp only [BitVec.getMsbD, BitVec.getLsbD_ofNat, Nat.testBit_eq_decide_div_mod_eq]
  cases x.present <;> simp

theorem LstSlot.bits_value (x : LstSlot) {j : Nat} (hj : j < 7) :
    x.bits.getMsbD (1 + j) = x.value.testBit (6 - j) := by
  unfold LstSlot.bits
  simp only [BitVec.getMsbD, BitVec.getLsbD_ofNat, Nat.testBit_eq_decide_div_mod_eq]
  cases x.present <;> interval_cases j <;> simp <;> omega

theorem lfsLevel_iff (b : Fin 96) : lfsLevel b = true ↔ b.val = 0 := by simp [lfsLevel]

/-! ### States that ignore the slot (R61) -/

theorem Pickup.slotEvent_ignored {p : Pickup} (k : PickupNo) (now : Frame) (bits : BitVec 8)
    (hs : p.state = .disabled ∨ p.state = .silent) : p.slotEvent k now bits = PickupResult.plain
      { p with quiet := p.quietAfter, lst := { present := false, value := 0 } } := by
  have unheard : ({ p with quiet := p.quietAfter } : Pickup).monitored = false := by
    rcases hs with hs | hs <;> simp [Pickup.monitored, hs]
  have quiet : ({ p with quiet := p.quietAfter } : Pickup).lstSettled = { present := false, value := 0 } :=
    Pickup.lstSettled_idle (by rcases hs with hs | hs <;> simp [hs])
  simp [Pickup.slotEvent, unheard, PickupResult.plain, Pickup.settle, quiet]

/-! ### A pickup in LISTENING (R66, R68, R71, R72) -/

/-- A slot that does not bring the stuck run to its limit (R62, R68). -/
theorem Pickup.noteGood_stuckRun {p : Pickup} (code : Nat) {liveness : Nat}
    (ha : p.stuckRun < 3 ∨ p.stuckRun = 3 ∧ ∀ l, p.lastLiveness = some l → liveness = (l + 1) % 4) :
    (p.noteGood code liveness).stuckRun = match p.lastLiveness with
      | none => p.stuckRun
      | some l => if liveness = (l + 1) % 4 then 0 else p.stuckRun + 1 := by
  refine (stuckRunAfter_class _ _ _).trans ?_
  cases hl : p.lastLiveness with
  | none => rfl
  | some l =>
    dsimp only
    split
    · rfl
    · next hn =>
      rcases ha with ha | ⟨-, ha⟩
      · omega
      · exact absurd (ha l hl) hn

/-- The onset tests change the candidate alone, and raise no report (R71, R72). -/
theorem Pickup.onsetTests_eq (k : PickupNo) (now : Frame) (p : Pickup) (before : Option Nat) (code : Nat) :
    ∃ candidate onset, p.onsetTests k now before code =
      { pickup := { p with candidate := candidate }, reason := none, onset := onset } := by
  unfold Pickup.onsetTests
  split
  · split
    · exact ⟨_, _, rfl⟩
    · exact ⟨p.candidate, _, rfl⟩
  · exact ⟨_, _, rfl⟩

/-- The second look at a candidate: accepted with the same strength, and no candidate behind it (R72). -/
theorem Pickup.onsetTests_second {p : Pickup} {c : Candidate} (k : PickupNo) (now : Frame) (before : Option Nat)
    (code : Nat) (hc : p.candidate = some c) : p.onsetTests k now before code =
      { pickup := { p with candidate := none }, reason := none,
        onset := if code = c.strength then
            some { pickup := k, strength := c.strength, frame := c.frame, arrival := now }
          else none } := by
  unfold Pickup.onsetTests
  rw [hc]

/-- A code of 1 to 14 behind a code of 0 becomes the candidate (R71). -/
theorem Pickup.onsetTests_first {p : Pickup} (k : PickupNo) (now : Frame) {code : Nat} (hc : p.candidate = none)
    (h1 : 1 ≤ code) (h14 : code ≤ 14) : p.onsetTests k now (some 0) code =
      PickupResult.plain { p with candidate := some { strength := code, frame := now } } := by
  unfold Pickup.onsetTests
  rw [hc]
  exact if_pos ⟨h1, h14, rfl⟩

/-- No other code becomes one (R71). -/
theorem Pickup.onsetTests_none {p : Pickup} (k : PickupNo) (now : Frame) {before : Option Nat} {code : Nat}
    (hc : p.candidate = none) (hn : ¬ (1 ≤ code ∧ code ≤ 14 ∧ before = some 0)) :
    p.onsetTests k now before code = PickupResult.plain p := by
  unfold Pickup.onsetTests
  rw [hc]
  exact if_neg hn

/-- The fourth stuck liveness in a row (R62, R68). -/
theorem Pickup.noteGood_stuck {p : Pickup} (code : Nat) {liveness l : Nat} (hr : p.stuckRun = 3)
    (hl : p.lastLiveness = some l) (hn : liveness ≠ (l + 1) % 4) : (p.noteGood code liveness).stuckRun = 4 := by
  refine (stuckRunAfter_class _ _ _).trans ?_
  simp [hl, hn, hr]

/-- A parity failure below the eighth in a row, with no handshake, changes the health values alone (R67). -/
theorem Pickup.parityFailure_plain {p : Pickup} (hs : p.state ≠ .fault) (hh : p.handshake = none)
    (hr : p.parityRun + 1 < 8) : p.parityFailure = PickupResult.plain p.noteParityFailure := by
  rw [Pickup.parityFailure_counts hs hr]
  simp only [Pickup.noteParityFailure, hh, Option.map_none]

/-! ### A pickup in FAULT (R67, R69) -/

/-- A good slot: the good run by the liveness and the code, which recovers the pickup at 4 (R69). -/
theorem Pickup.slotEvent_fault_good {p : Pickup} {run : Nat} (k : PickupNo) (now : Frame) {bits : BitVec 8}
    (hs : p.state = .fault) (hg : slotGood bits = true)
    (hr : run = goodRunAfter p.goodRun (classLiveness p.lastLiveness (slotLiveness bits)) (slotCode bits)) :
    p.slotEvent k now bits =
      (let q := { ({ p with quiet := p.quietAfter } : Pickup).noteGood (slotCode bits) (slotLiveness bits) with
        goodRun := run }
      if run = 4 then PickupResult.because q.recover.settle .recovered else PickupResult.plain q.settle) := by
  subst hr
  rw [Pickup.slotEvent_good k now (by simp [Pickup.monitored, hs]) hg]
  have faulty : ({ p with quiet := p.quietAfter } : Pickup).state = .fault := hs
  simp only [Pickup.goodSlot, if_pos faulty, Pickup.recoveryTest]
  have limit : Config.goodLimit = 4 := rfl
  by_cases h : goodRunAfter p.goodRun (classLiveness p.lastLiveness (slotLiveness bits)) (slotCode bits) = 4
  · exact (congrArg (fun r : PickupResult => { r with pickup := r.pickup.settle }) (if_pos h)).trans (if_pos h).symm
  · exact (congrArg (fun r : PickupResult => { r with pickup := r.pickup.settle }) (if_neg h)).trans (if_neg h).symm

/-- A parity failure clears the runs (R67). -/
theorem Pickup.slotEvent_fault_parity {p : Pickup} (k : PickupNo) (now : Frame) {bits : BitVec 8}
    (hs : p.state = .fault) (hg : slotGood bits = false) : p.slotEvent k now bits =
      PickupResult.plain ({ p with quiet := p.quietAfter } : Pickup).noteParityFailure.settle := by
  rw [Pickup.slotEvent_parity k now (by simp [Pickup.monitored, hs]) hg]
  have faulty : ({ p with quiet := p.quietAfter } : Pickup).state = .fault := hs
  simp only [Pickup.parityFailure, if_pos faulty]
  rfl

/-- The recovered pickup: LISTENING with no value to send, else CONFIGURING; its runs are 0 (R69). -/
theorem Pickup.recover_eq (p : Pickup) : p.recover.state = (if p.entry.count = 0 then .listening else .configuring)
    ∧ p.recover.parityRun = 0 ∧ p.recover.stuckRun = 0 ∧ p.recover.goodRun = 0 := by
  unfold Pickup.recover
  dsimp only
  split <;> exact ⟨rfl, rfl, rfl, rfl⟩

/-! ### The accepted onset (R72, R87, R88) -/

/-- An event of a pickup writes that pickup's entry alone at the sense link controller. -/
theorem State.applyPickup_link (k : PickupNo) (r : PickupResult) (s : State) :
    (s.applyPickup k r).link = { s.link with pickups := s.link.pickups.set k r.pickup } := by
  unfold State.applyPickup
  dsimp only
  split <;> simp

theorem State.takeTimeout_none {s : State} {i : Installed} {k : PickupNo} (hi : s.loader.installed = some i)
    (h : ∀ h, (s.link.pickups[k]).handshake = some h → h.timeoutDue = false) : s.takeTimeout k =
      { s with matcher := { s.matcher with lag := some (expiryLag s.link.largestDelay i.mergeSpan) } } := by
  unfold State.takeTimeout
  rw [Pickup.takeTimeout_none h, State.applyPickup_installed k hi rfl rfl]
  simp [PickupResult.plain]

/-- The lag is recomputed from the pickups, whatever it was (R102). -/
theorem State.applyPickup_lag {s : State} {i : Installed} (k : PickupNo) (r : PickupResult) (lag : Option Nat)
    (hi : s.loader.installed = some i) :
    State.applyPickup k r { s with matcher := { s.matcher with lag := lag } } = s.applyPickup k r := by
  unfold State.applyPickup
  cases r.reason with
  | none =>
    dsimp only
    rw [State.recomputeLag_installed (i := i) (by exact hi), State.recomputeLag_installed (i := i) (by exact hi)]
  | some x =>
    dsimp only
    rw [State.raise_installed (i := i) _ _ (by exact hi), State.raise_installed (i := i) _ _ (by exact hi),
      State.recomputeLag_installed (i := i) (by exact hi), State.recomputeLag_installed (i := i) (by exact hi)]
    rfl

/-- SLOT_EVENT of a pickup whose timeout is not due (log entry 27). -/
theorem exec_slotEvent {s : State} {i : Installed} {k : PickupNo} (bits : BitVec 8)
    (hi : s.loader.installed = some i) (h : ∀ h, (s.link.pickups[k]).handshake = some h → h.timeoutDue = false) :
    exec (.slotEvent k bits) s = .next
      (s.applyPickup k ((s.link.pickups[k]).slotEvent k s.link.frame bits)).pump := by
  show execSlotEvent k bits s = _
  unfold execSlotEvent
  rw [State.takeTimeout_none hi h]
  dsimp only
  rw [State.applyPickup_lag k _ _ hi]

/-- The second look of the candidate's strength accepts the onset of the first look's frame (R71, R72). -/
theorem Pickup.slotEvent_accepts {p : Pickup} {c : Candidate} (k : PickupNo) (now : Frame) {bits : BitVec 8}
    (hs : p.state = .listening) (hh : p.handshake = none) (hc : p.candidate = some c) (hg : slotGood bits = true)
    (hcode : slotCode bits = c.strength) (h15 : c.strength ≠ 15)
    (ha : p.stuckRun < 3 ∨ p.stuckRun = 3 ∧ ∀ l, p.lastLiveness = some l → slotLiveness bits = (l + 1) % 4) :
    ∃ q, p.slotEvent k now bits =
        { pickup := q, reason := none,
          onset := some { pickup := k, strength := c.strength, frame := c.frame, arrival := now } }
      ∧ q.state = .listening ∧ q.candidate = none ∧ q.entry = p.entry := by
  rw [Pickup.slotEvent_listening k now bits hs hh hg (fun h => h15 (hcode ▸ h.1)) ha,
    Pickup.onsetTests_second (c := c) k _ _ _ (by exact hc), if_pos hcode]
  exact ⟨_, rfl, hs, rfl, rfl⟩

/-- An event that accepts an onset hands it to the fuser, the pickup's entry and the lag being brought up to date. -/
theorem State.applyPickup_onset {s : State} {i : Installed} {r : PickupResult} (k : PickupNo)
    (hi : s.loader.installed = some i) (hr : r.reason = none) : s.applyPickup k r =
      State.takeOnset r.onset { s with
        link := { s.link with pickups := s.link.pickups.set k r.pickup },
        matcher := { s.matcher with
          lag := some (expiryLag
            (Link.largestDelay { s.link with pickups := s.link.pickups.set k r.pickup }) i.mergeSpan) } } := by
  unfold State.applyPickup
  rw [hr]
  dsimp only
  rw [State.recomputeLag_installed (i := i) (by exact hi)]

/-- The onset opens a window when the fuser runs without one, and is ignored outside the running states (R87, R88). -/
theorem State.takeOnset_opens {s : State} {i : Installed} (x : Onset) (hi : s.loader.installed = some i)
    (hw : s.fuser.running = true → s.fuser.window = none) : s.takeOnset (some x) =
      { s with fuser := if s.fuser.running then
          { running := true,
            window := some (Window.openedBy i.mergeSpan (contributorOf s.link.pickups[x.pickup].entry x)) }
        else s.fuser } := by
  unfold State.takeOnset
  simp only [hi, Fuser.takeOnset]
  cases hr : s.fuser.running with
  | false => simp [State.takeFused]
  | true => simp [hw hr, State.takeFused]

end Sys2Proof.Machine

open Sys2Proof Sys2Proof.Machine

/-- Settles O42: the slot by the pickup's state, and what its result brings to the part. -/
theorem slotEventTakenWhole : Obligations.SlotEventTakenWhole := by
  intro k bits s
  refine ⟨?_, ⟨slotCode_eq bits, slotAck_iff bits, slotLiveness_eq bits, slotGood_iff bits⟩, ?_, ?_, ?_, ?_, ?_, ?_, ?_⟩
  · have kept : (s.takeTimeout k).link.frame = s.link.frame := by simp [State.takeTimeout, State.applyPickup_link]
    refine ⟨_, rfl, ?_, fun j hj => ?_, ?_, by simp⟩
    · simp [State.applyPickup_link, State.takeTimeout]
    · have apart : k.val ≠ j.val := fun h => hj (Fin.ext h.symm)
      simp [State.applyPickup_link, State.takeTimeout, apart]
    · simp [State.applyPickup_link, kept]
  · rintro i p r pickups delay hw hi rfl hd rfl hp hmax hreached
    have delayed : Link.largestDelay { s.link with pickups := pickups } = delay :=
      Link.largestDelay_eq hmax hreached
    subst hp
    refine ⟨Pickup.slotEvent_exclusive k _ bits _, fun ho => pumped (exec_slotEvent bits hi hd) ?_ hw⟩
    rw [State.applyPickup_installed k hi ho rfl, delayed]
    rfl
  · rintro i c p hw hi rfl hs hh hc hg hcode h15 ha hf
    have idle : ∀ h, (s.link.pickups[k]).handshake = some h → h.timeoutDue = false := fun h hx => by
      rw [hh] at hx; cases hx
    obtain ⟨q, heard, hstate, hcand, hentry⟩ :=
      Pickup.slotEvent_accepts k s.link.frame hs hh hc hg hcode h15 ha
    have taken := exec_slotEvent bits hi idle
    rw [heard, State.applyPickup_onset k hi rfl, State.takeOnset_opens (i := i) _ (by exact hi) (by exact hf)] at taken
    obtain ⟨t, ht, -, ⟨⟨_, _, _, rfl⟩, -⟩, -⟩ := pumped taken rfl hw
    refine ⟨_, ht, ?_, ?_, ?_, rfl, rfl, rfl⟩
    · simp [Window.openedBy, contributorOf, hentry]
    · simpa using hstate
    · simpa using hcand
  · rintro p advances coded hs hh rfl rfl
    have monitored : p.monitored = true := by simp [Pickup.monitored, hs]
    have sound : ({ p with quiet := p.quietAfter } : Pickup).state ≠ .fault := by simp [hs]
    refine ⟨fun hg hr => ?_, fun hg hr => ?_, fun c hg hc ha hcand => ?_, fun hg h1 h14 ha hcand hlast => ?_,
      fun hg hc ha hcand hn => ?_, fun hg hc => ?_, fun hg hc ha => ?_, fun l hg hc hst hl hn => ?_⟩
    · rw [Pickup.slotEvent_parity k _ monitored hg, Pickup.parityFailure_plain sound hh hr]
      exact ⟨rfl, rfl, hs, Nat.min_eq_right hr.le, rfl, rfl, rfl, rfl⟩
    · rw [Pickup.slotEvent_parity k _ monitored hg, Pickup.parityFailure_faults sound hr]
      exact ⟨rfl, rfl⟩
    · rw [Pickup.slotEvent_listening k _ bits hs hh hg hc ha, Pickup.onsetTests_second (c := c) k _ _ _ (by exact hcand)]
      exact ⟨rfl, rfl, rfl⟩
    · rw [Pickup.slotEvent_listening k _ bits hs hh hg (by omega) ha, hlast,
        Pickup.onsetTests_first k _ (by exact hcand) h1 h14]
      exact ⟨rfl, rfl⟩
    · rw [Pickup.slotEvent_listening k _ bits hs hh hg hc ha, Pickup.onsetTests_none k _ (by exact hcand)]
      · exact ⟨hcand, rfl⟩
      · rintro ⟨h1, h14, h0⟩
        rcases hn with hn | hn | hn
        · omega
        · omega
        · exact hn h0
    · rw [Pickup.slotEvent_good k _ monitored hg, Pickup.goodSlot_coded k _ _ _ sound hc]
      exact ⟨rfl, rfl⟩
    · obtain ⟨candidate, onset, tested⟩ := Pickup.onsetTests_eq k s.link.frame
        (({ p with quiet := p.quietAfter } : Pickup).noteGood (slotCode bits) (slotLiveness bits)) p.lastCode
        (slotCode bits)
      rw [Pickup.slotEvent_listening k _ bits hs hh hg hc ha, tested]
      exact ⟨hs, rfl, rfl, rfl, rfl, Pickup.lstSettled_idle (by simp [Pickup.noteGood, hs]),
        Pickup.noteGood_stuckRun (slotCode bits) (by exact ha)⟩
    · rw [Pickup.slotEvent_good k _ monitored hg,
        Pickup.goodSlot_stuck k _ _ sound hc (Pickup.noteGood_stuck _ (by exact hst) (by exact hl) hn)]
      exact ⟨rfl, rfl, rfl, rfl, rfl, rfl, rfl, rfl⟩
  · rintro p l hs hl
    refine ⟨fun hg hc hv hr => ?_, fun hg hc hv hr => ?_, fun h => ?_⟩
    · have run : p.goodRun + 1 = goodRunAfter p.goodRun (classLiveness p.lastLiveness (slotLiveness bits))
          (slotCode bits) := by
        simp [hl, hv, classLiveness, goodRunAfter, hc, Config.goodLimit]; omega
      rw [Pickup.slotEvent_fault_good k _ hs hg run, if_neg (by omega)]
      exact ⟨rfl, hs, rfl⟩
    · have run : 4 = goodRunAfter p.goodRun (classLiveness p.lastLiveness (slotLiveness bits)) (slotCode bits) := by
        simp [hl, hv, classLiveness, goodRunAfter, hc, Config.goodLimit, hr]
      rw [Pickup.slotEvent_fault_good k _ hs hg run, if_pos rfl]
      obtain ⟨hstate, hparity, hstuck, hgood⟩ := Pickup.recover_eq
        { ({ p with quiet := p.quietAfter } : Pickup).noteGood (slotCode bits) (slotLiveness bits) with goodRun := 4 }
      exact ⟨rfl, rfl, hstate, hparity, hstuck, hgood⟩
    · cases hg : slotGood bits with
      | false =>
        rw [Pickup.slotEvent_fault_parity k _ hs hg]
        exact ⟨rfl, hs, rfl⟩
      | true =>
        have run : 0 = goodRunAfter p.goodRun (classLiveness p.lastLiveness (slotLiveness bits)) (slotCode bits) := by
          have spoilt : slotLiveness bits ≠ (l + 1) % 4 ∨ slotCode bits = 15 := h.resolve_left (by simp [hg])
          rw [hl]
          unfold classLiveness goodRunAfter
          by_cases hv : slotLiveness bits = (l + 1) % 4
          · simp [hv, spoilt.resolve_left (not_not.2 hv)]
          · simp [hv]
        rw [Pickup.slotEvent_fault_good k _ hs hg run, if_neg (by decide)]
        exact ⟨rfl, hs, rfl⟩
  · rintro p hs hl hr
    refine ⟨fun hg => ?_, fun hg => ?_⟩
    · have run : (if slotCode bits = 15 then 0 else p.goodRun)
          = goodRunAfter p.goodRun (classLiveness p.lastLiveness (slotLiveness bits)) (slotCode bits) := by
        rw [hl]; rfl
      rw [Pickup.slotEvent_fault_good k _ hs hg run, if_neg (by split <;> omega)]
      refine ⟨rfl, rfl, hs, rfl, ?_, rfl, rfl⟩
      exact (stuckRunAfter_class p.stuckRun p.lastLiveness _).trans (by rw [hl])
    · rw [Pickup.slotEvent_fault_parity k _ hs hg]
      exact ⟨rfl, hs, rfl⟩
  · exact fun p hs => Pickup.slotEvent_ignored k _ bits hs
  · rintro b x rfl -
    refine ⟨fun hb => ?_, fun j hj hb => ?_, lfsLevel_iff b⟩
    · rw [s.link.lstLevel_eq (k := k) (j := 0) (by decide) hb, LstSlot.bits_first]
    · rw [s.link.lstLevel_eq (k := k) (j := 1 + j) (by omega) (by omega), LstSlot.bits_value _ hj]
end

section
/-! The read of a pickup-entry fetch, and the entry that the second word delivers (R63, R70, R74, R83, R102, R163). -/

namespace Sys2Proof.Machine

/-! ### The fetch of an entry (R163) -/

/-- The read of a pickup-entry fetch completes (R163). -/
theorem exec_pickupReadDone {s : State} {a : Nat} {discard : Bool} (h : s.path.port = some (.pickupRead a discard)) :
    exec .pickupReadDone s = .next
      (State.complete (.pickupRead a discard) { s with path := { s.path with port := none } }).pump := by
  show execPickupReadDone s = _
  unfold execPickupReadDone
  rw [h]
  simp only [State.portDone_access h]

/-- The first word of the entry is kept (R163). -/
theorem State.pickupWord_first {s : State} {e : PickupFetch} {rest : List PickupFetch} (w : Word)
    (hl : s.loader.pickupList = e :: rest) (hg : s.loader.pickupGot = []) :
    s.pickupWord w = { s with loader := { s.loader with pickupGot := [w] } } := by
  unfold State.pickupWord
  rw [hl, hg]

/-- The second word delivers the entry, and the pickup leaves the list (R83, R163). -/
theorem State.pickupWord_second {s : State} {i : Installed} {e : PickupFetch} {rest : List PickupFetch} {w0 : Word}
    {r : PickupResult} {reports : List Raised} (w : Word)
    (hi : s.loader.installed = some i) (hl : s.loader.pickupList = e :: rest) (hg : s.loader.pickupGot = [w0])
    (hd : (s.link.pickups[e.pickup]).deliver (parsePickup w0 w e.carried) = r) (ho : r.onset = none)
    (hr : reports = match r.reason with
      | none => []
      | some x => [s.reported .link (.pickup e.pickup s.link.pickups[e.pickup].state r.pickup.state x)]) :
    s.pickupWord w =
      { s with
        loader := { s.loader with pickupList := rest, pickupGot := [] },
        link := { s.link with pickups := s.link.pickups.set e.pickup r.pickup },
        matcher := { s.matcher with
          lag := some (expiryLag
            (Link.largestDelay { s.link with pickups := s.link.pickups.set e.pickup r.pickup }) i.mergeSpan) },
        raised := s.raised ++ reports } := by
  unfold State.pickupWord
  rw [hl, hg]
  dsimp only
  rw [hd, State.applyPickup_installed (i := i) e.pickup (by exact hi) ho (by exact hr)]

/-! ### The table of R83 -/

theorem parsePickup_enabled (w0 w1 w2 : Word) : (parsePickup w0 w1 w2).enabled = decide (w0.toNat % 2 = 1) := by
  simp [parsePickup, bit, field, beq_eq_decide]

theorem parsePickup_count (w0 w1 w2 : Word) : (parsePickup w0 w1 w2).count = w0.toNat / 4096 % 8 := rfl

/-- A pickup with nothing on LST (R63). -/
def Pickup.mute (p : Pickup) : Pickup := { p with lst := { present := false, value := 0 } }

theorem Pickup.settle_idle {p : Pickup} (h : p.state ≠ .configuring) : p.settle = p.mute := by
  simp only [Pickup.settle, Pickup.lstSettled_idle h, Pickup.mute]

/-- A message begins in LEAD-IN, or with the quiet count at 2 in AWAITING re-arm with value 1 in the LST slot (R63,
R74). -/
theorem Pickup.beginMessage_settle (p : Pickup) : p.beginMessage.settle =
    { p with
      state := .configuring, candidate := none, handshake := some (Handshake.atStart p.quiet),
      lst := if p.quiet = 2 then { present := true, value := p.entry.value1 } else { present := false, value := 0 } } := by
  have carried : p.beginMessage.lstSettled =
      if p.quiet = 2 then { present := true, value := p.entry.value1 } else { present := false, value := 0 } := by
    by_cases hq : p.quiet = 2
    · rw [if_pos hq, Pickup.lstSettled_value (h := Handshake.atStart p.quiet) rfl rfl (.inl (if_pos hq))]
      rfl
    · rw [if_neg hq, Pickup.lstSettled_between (h := Handshake.atStart p.quiet) rfl (.inl (if_neg hq))]
  simp only [Pickup.settle, carried]
  rfl

/-- An entry that enables is entered by its value count (R83). -/
theorem Pickup.enterByCount_settle (p : Pickup) : p.enterByCount.settle =
    if p.entry.count = 0 then p.listen.mute else p.beginMessage.settle := by
  unfold Pickup.enterByCount
  split
  · exact Pickup.settle_idle (by simp [Pickup.listen])
  · rfl

/-- A value count of 5 to 7 is refused (R83). -/
theorem Pickup.deliver_refused {p : Pickup} {e : PickupEntry} (h : 4 < e.count) :
    p.deliver e = PickupResult.because p .badEntry := if_pos h

theorem Pickup.deliver_accepted {p : Pickup} {e : PickupEntry} (h : e.count ≤ 4) : p.deliver e = p.commit e :=
  if_neg (Nat.not_lt.2 h)

/-- An entry that disables leaves DISABLED and SILENT, and one that enables leaves FAULT (R83). -/
theorem Pickup.commit_stays {p : Pickup} {e : PickupEntry}
    (h : e.enabled = false ∧ (p.state = .disabled ∨ p.state = .silent) ∨ e.enabled = true ∧ p.state = .fault) :
    p.commit e = PickupResult.plain ({ p with entry := e } : Pickup).mute := by
  have idle : ({ p with entry := e } : Pickup).settle = ({ p with entry := e } : Pickup).mute :=
    Pickup.settle_idle (by rcases h with ⟨-, hs | hs⟩ | ⟨-, hs⟩ <;> simp [hs])
  unfold Pickup.commit
  rcases h with ⟨he, hs | hs⟩ | ⟨he, hs⟩ <;> simpa [hs, he, PickupResult.plain] using idle

/-- An entry that disables takes the monitored states into DISABLED (R83). -/
theorem Pickup.commit_disables {p : Pickup} {e : PickupEntry} (he : e.enabled = false)
    (hs : p.state = .configuring ∨ p.state = .listening ∨ p.state = .fault) :
    p.commit e = PickupResult.because ({ p with entry := e } : Pickup).disable.mute .commit := by
  unfold Pickup.commit
  rcases hs with hs | hs | hs <;> simp [hs, he, PickupResult.because] <;> rfl

/-- An entry that enables a pickup outside the monitored states: its health values are cleared (R83). -/
theorem Pickup.commit_enters {p : Pickup} {e : PickupEntry} (he : e.enabled = true)
    (hs : p.state = .disabled ∨ p.state = .silent) :
    p.commit e = PickupResult.because ({ p with entry := e } : Pickup).clearHealth.enterByCount.settle .commit := by
  unfold Pickup.commit
  rcases hs with hs | hs <;> simp [hs, he, PickupResult.because]

/-- An entry that enables a CONFIGURING or LISTENING pickup: its health values are kept (R83). -/
theorem Pickup.commit_reenters {p : Pickup} {e : PickupEntry} (he : e.enabled = true)
    (hs : p.state = .configuring ∨ p.state = .listening) :
    p.commit e = PickupResult.because ({ p with entry := e } : Pickup).enterByCount.settle .commit := by
  unfold Pickup.commit
  rcases hs with hs | hs <;> simp [hs, he, PickupResult.because]

end Sys2Proof.Machine

open Sys2Proof Sys2Proof.Machine

/-- Settles O31: the word kept, the entry refused, or the entry taken by the table of R83. -/
theorem pickupReadTaken : Obligations.PickupReadTaken := by
  intro a e rest s hw hp hl
  refine ⟨fun hg => ?_, fun i w0 hi hg hc => ?_, ?_⟩
  · exact pumped (exec_pickupReadDone hp) (State.pickupWord_first _ (by exact hl) (by exact hg)) hw
  · refine pumped (exec_pickupReadDone hp) ((State.pickupWord_second (i := i) _ (by exact hi) (by exact hl) (by exact hg)
      (Pickup.deliver_refused (by exact hc)) rfl rfl).trans ?_) hw
    simp [PickupResult.because, State.reported, Tracker.integer]
  · rintro i w0 p cleared q entry bare listens begins reported l hi hg hc rfl rfl rfl rfl hlistens hbegins hq rfl
    have table : (s.link.pickups[e.pickup]).deliver (parsePickup w0 (s.mem.read a) e.carried) =
        { pickup := q, reason := if reported then some .commit else none, onset := none } := by
      have entered (x : Pickup) (hx : x.entry = parsePickup w0 (s.mem.read a) e.carried)
          (hquiet : x.quiet = s.link.pickups[e.pickup].quiet) :
          x.enterByCount.settle = if w0.toNat / 4096 % 8 = 0 then listens x else begins x := by
        rw [Pickup.enterByCount_settle, hx, parsePickup_count]
        split
        · rw [hlistens]; rfl
        · rw [Pickup.beginMessage_settle, hbegins, hx, hquiet]; rfl
      rw [Pickup.deliver_accepted (by exact hc)]
      rw [← parsePickup_enabled w0 (s.mem.read a) e.carried] at hq
      split at hq <;> obtain ⟨rfl, rfl⟩ := Prod.mk.inj hq
      · next hs he => exact Pickup.commit_stays (.inl ⟨he, .inl hs⟩)
      · next hs he => exact Pickup.commit_stays (.inl ⟨he, .inr hs⟩)
      · next hs he => exact Pickup.commit_disables he (.inl hs)
      · next hs he => exact Pickup.commit_disables he (.inr (.inl hs))
      · next hs he => exact Pickup.commit_disables he (.inr (.inr hs))
      · next hs he => rw [Pickup.commit_enters he (.inl hs), entered _ (by rfl) (by rfl)]; rfl
      · next hs he => rw [Pickup.commit_enters he (.inr hs), entered _ (by rfl) (by rfl)]; rfl
      · next hs he => rw [Pickup.commit_reenters he (.inl hs), entered _ (by rfl) (by rfl)]; rfl
      · next hs he => rw [Pickup.commit_reenters he (.inr hs), entered _ (by rfl) (by rfl)]; rfl
      · next hs he => exact Pickup.commit_stays (.inr ⟨he, hs⟩)
    refine pumped (exec_pickupReadDone hp) ((State.pickupWord_second (i := i) _ (by exact hi) (by exact hl) (by exact hg)
      (by exact table) rfl rfl).trans ?_) hw
    cases reported <;> rfl
end

section
/-! The five tests of R159 on the words of an anchor block, and what a valid block installs by the layout of R177. -/

namespace Sys2Proof.Machine

/-! ### The words of a block -/

/-- The words of a block as numbers. -/
def wordsOf (ws : List Word) (n : Nat) : Nat := (ws.getD n 0).toNat

theorem wordsOf_lt (ws : List Word) (n : Nat) : wordsOf ws n < 65536 := (ws.getD n 0).isLt

theorem anchorWord_toNat (ws : List Word) (n : Nat) : (anchorWord ws n).toNat = wordsOf ws n := rfl

theorem field_anchorWord (ws : List Word) (n lo len : Nat) :
    field (anchorWord ws n) lo len = wordsOf ws n / 2 ^ lo % 2 ^ len := rfl

theorem bit_anchorWord (ws : List Word) (n j : Nat) :
    bit (anchorWord ws n) j = (wordsOf ws n / 2 ^ j % 2 == 1) := rfl

theorem within_iff {lo hi n : Nat} : within lo hi n = true ↔ lo ≤ n ∧ n ≤ hi := by simp [within]

/-! ### Test 3, RANGE, word by word (R159, R177) -/

/-- Words 0 to 23: the region map and the settings. -/
def settingLegal (w : Nat → Nat) (n : Nat) : Prop :=
  (n = 3 → 64 ≤ w n ∧ w n ≤ 2048)
  ∧ (n = 4 → w n % 256 = 0)
  ∧ (n = 8 → 16 ≤ w n ∧ w n ≤ 1024)
  ∧ (n = 11 ∨ n = 12 → 320 ≤ w n ∧ w n ≤ 4000)
  ∧ (n = 13 → w n % 32 ≤ 16 ∧ w n / 32 % 8 = 0)
  ∧ (n = 14 → 1 ≤ w n ∧ w n ≤ 255)
  ∧ (n = 15 → 1 ≤ w n % 16 ∧ w n / 16 % 16 = 0)
  ∧ (n = 16 → 1 ≤ w n ∧ w n ≤ 31)
  ∧ (n = 17 → 1 ≤ w n ∧ w n ≤ 1023)
  ∧ (n = 18 → w n ≤ 63)
  ∧ (n = 20 → w n ≤ 4095)
  ∧ (n = 21 → 1 ≤ w n)
  ∧ (n = 22 → w n ≤ 255)
  ∧ (n = 23 → w n ≤ 1)

/-- Words 24 + 3d and 25 + 3d: the settings and the couplers of division d. -/
def divisionLegal (w : Nat → Nat) (n d : Nat) : Prop :=
  (n = 24 + 3 * d → w n / 16 % 16 = 0 ∧ w n / 8192 = 0 ∧ (w n / 256 % 32 ≤ 12 ∨ 20 ≤ w n / 256 % 32))
  ∧ (n = 25 + 3 * d →
    (w (24 + 3 * d) / 4 % 2 = 1 → w n % 64 ≤ 24 ∨ 40 ≤ w n % 64)
    ∧ (w (24 + 3 * d) / 4 % 2 = 0 → w n % 256 = 0)
    ∧ (w (24 + 3 * d) / 8 % 2 = 1 → w n / 256 % 64 ≤ 24 ∨ 40 ≤ w n / 256 % 64)
    ∧ (w (24 + 3 * d) / 8 % 2 = 0 → w n / 256 = 0))

/-- Words 36 + 3k to 38 + 3k: the entry of pickup k. -/
def pickupLegal (w : Nat → Nat) (n k : Nat) : Prop :=
  (n = 36 + 3 * k → w n < 32768 ∧ w n / 4096 ≤ 4)
  ∧ (n = 37 + 3 * k ∨ n = 38 + 3 * k → w n < 32768 ∧ w n / 128 % 2 = 0)

theorem anchorFieldLegal_iff (w : Nat → Nat) (n : Nat) : anchorFieldLegal w n ↔
    settingLegal w n ∧ (∀ d, d < 4 → divisionLegal w n d) ∧ ∀ k, k < 12 → pickupLegal w n k := by
  simp only [anchorFieldLegal, settingLegal, divisionLegal, pickupLegal, and_assoc]

theorem settingLegal_high (w : Nat → Nat) {n : Nat} (h : 24 ≤ n) : settingLegal w n := by
  unfold settingLegal
  and_intros <;> intro hn <;> omega

theorem anchorWordLegal_setting (ws : List Word) {n : Nat} (h : n < 24) :
    anchorWordLegal ws n = true ↔ settingLegal (wordsOf ws) n := by
  have below := wordsOf_lt ws n
  unfold anchorWordLegal
  interval_cases n <;>
    simp [settingLegal, within_iff, anchorWord_toNat, field_anchorWord] <;> omega

/-- A transposition lies within −12 to +12 (R177). -/
theorem signed_transposition {n : Nat} (hn : n < 32) : -12 ≤ signed 5 n ∧ signed 5 n ≤ 12 ↔ n ≤ 12 ∨ 20 ≤ n := by
  unfold signed
  split <;> omega

/-- A coupler's offset lies within −24 to +24 (R177). -/
theorem signed_offset {n : Nat} (hn : n < 64) : -24 ≤ signed 6 n ∧ signed 6 n ≤ 24 ↔ n ≤ 24 ∨ 40 ≤ n := by
  unfold signed
  split <;> omega

theorem couplerLegal_iff {present : Bool} {bits : Nat} : couplerLegal present bits = true ↔
    (present = true → bits % 64 ≤ 24 ∨ 40 ≤ bits % 64) ∧ (present = false → bits = 0) := by
  unfold couplerLegal
  cases present with
  | false => simp
  | true => simp [signed_offset (Nat.mod_lt bits (by decide : 0 < 64))]

theorem anchorWordLegal_division (ws : List Word) {d j : Nat} (hd : d < 4) (hj : j < 3) :
    anchorWordLegal ws (24 + 3 * d + j) = true ↔ divisionLegal (wordsOf ws) (24 + 3 * d + j) d := by
  have below := wordsOf_lt ws
  unfold anchorWordLegal divisionLegal
  have place : (24 + 3 * d + j) % 3 = j := by omega
  simp only [if_neg (show ¬ 24 + 3 * d + j < 24 by omega), if_pos (show 24 + 3 * d + j < 36 by omega), place]
  interval_cases j
  · have := below (24 + 3 * d)
    have moved := signed_transposition (Nat.mod_lt (wordsOf ws (24 + 3 * d) / 256) (by decide : 0 < 32))
    simp [field_anchorWord]
    omega
  · have := below (25 + 3 * d)
    have shown : 24 + 3 * d + 1 = 25 + 3 * d := by omega
    have before : 25 + 3 * d - 1 = 24 + 3 * d := by omega
    simp only [shown, before, Bool.and_eq_true, couplerLegal_iff, field_anchorWord, bit_anchorWord]
    simp
    omega
  · have apart : 24 + 3 * d + 2 ≠ 25 + 3 * d := by omega
    simp [apart]

theorem anchorWordLegal_pickup (ws : List Word) {k j : Nat} (hk : k < 12) (hj : j < 3) :
    anchorWordLegal ws (36 + 3 * k + j) = true ↔ pickupLegal (wordsOf ws) (36 + 3 * k + j) k := by
  have below := wordsOf_lt ws
  unfold anchorWordLegal pickupLegal
  have place : (36 + 3 * k + j) % 3 = j := by omega
  simp only [if_neg (show ¬ 36 + 3 * k + j < 24 by omega), if_neg (show ¬ 36 + 3 * k + j < 36 by omega),
    if_pos (show 36 + 3 * k + j < 72 by omega), place]
  interval_cases j
  · have := below (36 + 3 * k)
    simp [within_iff, field_anchorWord]
    omega
  · have := below (36 + 3 * k + 1)
    simp [field_anchorWord]
    omega
  · have := below (36 + 3 * k + 2)
    simp [field_anchorWord]
    omega

theorem divisionLegal_other (w : Nat → Nat) {n d : Nat} (h : n < 24 + 3 * d ∨ 26 + 3 * d ≤ n) : divisionLegal w n d := by
  unfold divisionLegal
  and_intros <;> intro hn <;> omega

theorem pickupLegal_other (w : Nat → Nat) {n k : Nat} (h : n < 36 + 3 * k ∨ 39 + 3 * k ≤ n) : pickupLegal w n k := by
  unfold pickupLegal
  and_intros <;> intro hn <;> omega

/-- Test 3 of R159 at each word of the block. -/
theorem anchorWordLegal_iff (ws : List Word) {n : Nat} (hn : n < 78) :
    anchorWordLegal ws n = true ↔ anchorFieldLegal (wordsOf ws) n := by
  rw [anchorFieldLegal_iff]
  rcases Nat.lt_or_ge n 24 with h | h
  · rw [anchorWordLegal_setting ws h]
    exact ⟨fun l => ⟨l, fun d _ => divisionLegal_other _ (by omega), fun k _ => pickupLegal_other _ (by omega)⟩,
      fun l => l.1⟩
  rcases Nat.lt_or_ge n 36 with h' | h'
  · obtain ⟨d, j, hd, hj, rfl⟩ : ∃ d j, d < 4 ∧ j < 3 ∧ n = 24 + 3 * d + j :=
      ⟨(n - 24) / 3, (n - 24) % 3, by omega, by omega, by omega⟩
    rw [anchorWordLegal_division ws hd hj]
    refine ⟨fun l => ⟨settingLegal_high _ h, fun e _ => ?_, fun k _ => pickupLegal_other _ (by omega)⟩,
      fun l => l.2.1 d hd⟩
    by_cases he : e = d
    · exact he ▸ l
    · exact divisionLegal_other _ (by omega)
  have divisions : ∀ d, d < 4 → divisionLegal (wordsOf ws) n d := fun d _ => divisionLegal_other _ (by omega)
  rcases Nat.lt_or_ge n 72 with h'' | h''
  · obtain ⟨k, j, hk, hj, rfl⟩ : ∃ k j, k < 12 ∧ j < 3 ∧ n = 36 + 3 * k + j :=
      ⟨(n - 36) / 3, (n - 36) % 3, by omega, by omega, by omega⟩
    rw [anchorWordLegal_pickup ws hk hj]
    refine ⟨fun l => ⟨settingLegal_high _ h, divisions, fun e _ => ?_⟩, fun l => l.2.2 k hk⟩
    by_cases he : e = k
    · exact he ▸ l
    · exact pickupLegal_other _ (by omega)
  · refine ⟨fun _ => ⟨settingLegal_high _ h, divisions, fun k _ => pickupLegal_other _ (by omega)⟩, fun _ => ?_⟩
    simp [anchorWordLegal, Nat.not_lt.2 h, Nat.not_lt.2 h', Nat.not_lt.2 h'']

theorem firstIllegalWord_some {ws : List Word} {n : Nat} (hn : n < 78) (h : ¬ anchorFieldLegal (wordsOf ws) n)
    (hl : ∀ m, m < n → anchorFieldLegal (wordsOf ws) m) : firstIllegalWord ws = some n := by
  refine List.find?_range_eq_some.2 ⟨?_, List.mem_range.2 hn, fun m hm => ?_⟩
  · simpa using mt (anchorWordLegal_iff ws hn).1 h
  · simpa using (anchorWordLegal_iff ws (hm.trans hn)).2 (hl m hm)

theorem firstIllegalWord_none {ws : List Word} (h : ∀ n, n < 78 → anchorFieldLegal (wordsOf ws) n) :
    firstIllegalWord ws = none :=
  List.find?_range_eq_none.2 fun n hn => by simpa using (anchorWordLegal_iff ws hn).2 (h n hn)

/-! ### Test 5, REGION (R159) -/

theorem allApart_iff (l : List (Nat × Nat)) : allApart l = true ↔
    l.Pairwise (fun x y => x.1 + x.2 ≤ y.1 ∨ y.1 + y.2 ≤ x.1) := by
  induction l with
  | nil => simp [allApart]
  | cons x l ih => simp [allApart, ih, regionsApart]

theorem Installed.regionsLegal_iff (i : Installed) : i.regionsLegal = true ↔
    (∀ x ∈ i.regions, 78 ≤ x.1 ∧ x.1 + x.2 ≤ 262144)
      ∧ i.regions.Pairwise (fun x y => x.1 + x.2 ≤ y.1 ∨ y.1 + y.2 ≤ x.1) := by
  rw [← allApart_iff, Installed.regionsLegal, Bool.and_eq_true, List.all_eq_true]
  simp only [regionInside, Bool.and_eq_true, decide_eq_true_eq]
  rfl

/-! ### What a block installs, by its words (R177) -/

/-- A 32-bit value of a block, low half first. -/
theorem pair_anchorWord (ws : List Word) (m n : Nat) :
    pair (anchorWord ws m) (anchorWord ws n) = wordsOf ws m + 65536 * wordsOf ws n := by
  unfold pair
  rw [anchorWord_toNat, anchorWord_toNat, Nat.mul_comm, Nat.add_comm]

theorem parseInstalled_eq {ws : List Word} {w : Nat → Nat} (hw : w = wordsOf ws) : parseInstalled ws =
    { scoreBase := w 1 + 65536 * w 2, slotCount := w 3, chestBase := w 4 + 65536 * w 5,
      logBase := w 6 + 65536 * w 7, logCount := w 8, statusBase := w 9 + 65536 * w 10,
      tmin := w 11, tmax := w 12, phaseGain := w 13 % 32, rateGain := w 13 / 256,
      maxTempoStep := w 14 % 256, lossLimit := w 15 % 16, lateTolerance := w 15 / 256,
      mergeSpan := w 16 % 32, fusionThreshold := w 17 % 1024, repeatGap := w 18 % 64,
      waitLimit := w 19, windSettle := w 20 % 4096, windLimit := w 21, windHold := w 22 % 256,
      releaseHistory := w 23 % 2 == 1 } := by
  subst hw
  have high (n : Nat) : wordsOf ws n / 256 % 256 = wordsOf ws n / 256 := by
    have := wordsOf_lt ws n
    omega
  simp [parseInstalled, pair_anchorWord, anchorWord_toNat, field_anchorWord, bit_anchorWord, high]

theorem installedDivisions_get (ws : List Word) (held : Vector (Option Word) 4) (d : Division) :
    (installedDivisions ws held)[d] = parseDivision (anchorWord ws (24 + 3 * d.val)) (anchorWord ws (25 + 3 * d.val))
      ((held[d]).getD (anchorWord ws (26 + 3 * d.val))) := by
  simp [installedDivisions, Nat.add_right_comm]

theorem installedPickups_get (ws : List Word) (old : Vector Pickup 12) (k : PickupNo) :
    (installedPickups ws old)[k] = (old[k]).install (parsePickup (anchorWord ws (36 + 3 * k.val))
      (anchorWord ws (37 + 3 * k.val)) (anchorWord ws (38 + 3 * k.val))) := by
  simp [installedPickups, Nat.add_right_comm]

/-- A division's words by the layout of R177. -/
theorem parseDivision_eq {signed : Nat → Nat → Int} {ws : List Word} {m n : Nat} (mask : Word)
    (hs : ∀ m x, signed m x = if x < m then (x : Int) else x - 2 * m) :
    parseDivision (anchorWord ws m) (anchorWord ws n) mask =
      { enabled := wordsOf ws m % 2 == 1, reverse := wordsOf ws m / 2 % 2 == 1,
        transpose := signed 16 (wordsOf ws m / 256 % 32),
        couplerA := if wordsOf ws m / 4 % 2 = 1 then
            some { target := Fin.ofNat 4 (wordsOf ws n / 64 % 4), offset := signed 32 (wordsOf ws n % 64) } else none,
        couplerB := if wordsOf ws m / 8 % 2 = 1 then
            some { target := Fin.ofNat 4 (wordsOf ws n / 16384), offset := signed 32 (wordsOf ws n / 256 % 64) }
          else none,
        stopMask := mask } := by
  have below := wordsOf_lt ws n
  have top : wordsOf ws n / 16384 % 4 = wordsOf ws n / 16384 := by omega
  have five (x : Nat) : Machine.signed 5 x = signed 16 x := (hs 16 x).symm
  have six (x : Nat) : Machine.signed 6 x = signed 32 x := (hs 32 x).symm
  simp [parseDivision, parseCoupler, field_anchorWord, bit_anchorWord, five, six, top]

/-- A pickup's words by the layout of R177. -/
theorem parsePickup_eq (ws : List Word) (l m n : Nat) :
    parsePickup (anchorWord ws l) (anchorWord ws m) (anchorWord ws n) =
      { enabled := wordsOf ws l % 2 == 1, weight := wordsOf ws l / 2 % 8, delay := wordsOf ws l / 16 % 256,
        count := wordsOf ws l / 4096 % 8, value1 := wordsOf ws m % 128, value2 := wordsOf ws m / 256 % 128,
        value3 := wordsOf ws n % 128, value4 := wordsOf ws n / 256 % 128 } := by
  simp [parsePickup, field_anchorWord, bit_anchorWord]

/-- A pickup at an installation: its health values are cleared, and it is in the state of its entry (R84). -/
theorem Pickup.install_eq (e : PickupEntry) (p : Pickup) : ∃ q : Pickup, p.install e = q
    ∧ q.entry = e ∧ q.parityRun = 0 ∧ q.stuckRun = 0 ∧ q.goodRun = 0 ∧ q.lastLiveness = none ∧ q.lastCode = none
    ∧ q.candidate = none ∧ q.quiet = p.quiet
    ∧ (e.enabled = false → q.state = .disabled ∧ q.handshake = none)
    ∧ (e.enabled = true → e.count = 0 → q.state = .listening ∧ q.handshake = none)
    ∧ (e.enabled = true → e.count ≠ 0 → q.state = .configuring ∧ q.handshake = some (Handshake.atStart p.quiet)) := by
  refine ⟨_, rfl, ?_⟩
  unfold Pickup.install Pickup.enterByCount
  dsimp only
  split_ifs with he hc
  · exact ⟨rfl, rfl, rfl, rfl, rfl, rfl, rfl, rfl, fun h => absurd h (by simp [he]), fun _ _ => ⟨rfl, rfl⟩,
      fun _ h => absurd hc h⟩
  · exact ⟨rfl, rfl, rfl, rfl, rfl, rfl, rfl, rfl, fun h => absurd h (by simp [he]), fun _ h => absurd h hc,
      fun _ _ => ⟨rfl, rfl⟩⟩
  · exact ⟨rfl, rfl, rfl, rfl, rfl, rfl, rfl, rfl, fun _ => ⟨rfl, rfl⟩, fun h => absurd h he, fun h => absurd h he⟩

/-! ### The judgement of a block (R159) -/

theorem anchorError_signature {ws : List Word} (h : wordsOf ws 0 ≠ 0x7A31) : anchorError ws = some .signature :=
  if_pos h

theorem anchorError_check {ws : List Word} (h0 : wordsOf ws 0 = 0x7A31) (hs : anchorSum ws ≠ 0) :
    anchorError ws = some (.check (anchorSum ws)) :=
  (if_neg (not_not.2 h0)).trans (if_pos hs)

theorem anchorError_range {ws : List Word} {n : Nat} (h0 : wordsOf ws 0 = 0x7A31) (hs : anchorSum ws = 0)
    (hr : firstIllegalWord ws = some n) : anchorError ws = some (.range n) := by
  refine (if_neg (not_not.2 h0)).trans ((if_neg (not_not.2 hs)).trans ?_)
  rw [hr]

/-- The tests LIMITS and REGION, behind words that are legal one by one. -/
theorem anchorError_whole {ws : List Word} (h0 : wordsOf ws 0 = 0x7A31) (hs : anchorSum ws = 0)
    (hr : firstIllegalWord ws = none) : anchorError ws =
      if (parseInstalled ws).tmax < (parseInstalled ws).tmin then some .limits
      else if (parseInstalled ws).regionsLegal = true then none else some .region := by
  refine (if_neg (not_not.2 h0)).trans ((if_neg (not_not.2 hs)).trans ?_)
  rw [hr]
  cases (parseInstalled ws).regionsLegal <;> rfl

end Sys2Proof.Machine
end

section
/-! The read of word 77: the end of an invalid load, and the installation of a valid block (R84, R102, R133, R135, R158
to R161, R174). -/

namespace Sys2Proof.Machine

/-- An error of the block rejects it with its reason. -/
theorem State.judgeAnchor_invalid {s : State} {ws : List Word} {reason : AnchorReason}
    (h : anchorError ws = some reason) : s.judgeAnchor ws = s.rejectAnchor reason := by
  unfold State.judgeAnchor
  rw [h]

/-- A block without an error is installed. -/
theorem State.judgeAnchor_valid {s : State} {ws : List Word} (h : anchorError ws = none) :
    s.judgeAnchor ws = s.install ws := by
  unfold State.judgeAnchor
  rw [h]

/-! ### The end of an invalid load (R161) -/

/-- The read of word 77 completes, and the block is judged (R158, R159). -/
theorem State.anchorReadWord_last {s : State} {ws : List Word} (w : Word) (hw : s.loader.load = some ws)
    (hl : ws.length = 77) : s.anchorReadWord w = s.judgeAnchor (ws ++ [w]) := by
  unfold State.anchorReadWord
  rw [hw]
  exact if_pos (by simp [hl, Config.anchorWords])

/-- An invalid first load leaves no configuration, and no report. -/
theorem State.rejectAnchor_first {s : State} (reason : AnchorReason) (hi : s.loader.installed = none) :
    s.rejectAnchor reason =
      { s with loader := { s.loader with
          config := .unconfigured, load := none, heldMasks := Vector.replicate 4 none,
          noted := Vector.replicate 12 none, pickupList := [], pickupGot := [] } } := by
  unfold State.rejectAnchor
  rw [hi, State.setConfig_eq, hi]
  simp [Loader.finish]

/-- An OFF sweep for a tracker left in STOPPING, with the port free (R161). -/
theorem State.sweepIfStopping_free {s : State} (hp : s.path.port = none) : s.sweepIfStopping =
    { s with chest :=
        if s.tracker.state = .stopping ∧ (∀ w, s.chest.sweep = some w → w.kind ≠ .off) then
          s.chest.requestSweep .off Divisions.all
        else s.chest } := by
  have off : s.chest.sweeping .off = false ↔ ∀ w, s.chest.sweep = some w → w.kind ≠ .off := by
    unfold Chest.sweeping
    cases s.chest.sweep <;> simp
  have kept : abandonChestWrite false s.path.port = s.path.port := by rw [hp]; rfl
  unfold State.sweepIfStopping
  simp only [Bool.not_eq_true, off]
  split
  · simp only [State.requestSweep, Chest.silences, if_true, kept]
  · rfl

/-- A later invalid load keeps the previous configuration (R161). -/
theorem State.rejectAnchor_later {s : State} {i : Installed} {chest : Chest} (reason : AnchorReason)
    (hi : s.loader.installed = some i) (hc : s.loader.config = .loading) (hp : s.path.port = none)
    (hr : s.tracker.state.running = false)
    (hm : chest = { s.chest with
      divisions := Vector.ofFn fun d : Division => s.chest.divisions[d].masked s.loader.heldMasks[d] }) :
    s.rejectAnchor reason =
      { s with
        loader := { s.loader with
          config := .configured, load := none, heldMasks := Vector.replicate 4 none,
          noted := Vector.replicate 12 none, pickupList := notedFetches s.loader.noted, pickupGot := [] },
        chest :=
          if s.tracker.state = .stopping ∧ (∀ w, s.chest.sweep = some w → w.kind ≠ .off) then
            chest.requestSweep .off Divisions.all
          else chest,
        report := { s.report with refreshDue := true },
        raised := s.raised ++ [s.reported .anchorLoader (.anchor (.invalid reason))] } := by
  subst hm
  have due : (s.report.refreshDue || (s.loader.config != .configured && s.loader.installed.isSome)) = true := by
    simp [hc, hi]
  unfold State.rejectAnchor
  rw [if_pos (by simp [hi]), State.raise_installed _ _ hi, State.enterConfigured_stopped (by exact hr),
    State.sweepIfStopping_free (by exact hp)]
  dsimp only
  rw [due]

/-! ### The installation of a valid block (R160) -/

/-- Taking reports leaves the task and the generation as they are (R165). -/
theorem ReportWriter.takeAll_keeps (l : List Raised) (w : ReportWriter) :
    (w.takeAll l).task = w.task ∧ (w.takeAll l).generation = w.generation := by
  unfold ReportWriter.takeAll
  induction l generalizing w with
  | nil => exact ⟨rfl, rfl⟩
  | cons r l ih =>
    obtain ⟨htask, hgen⟩ := ih (w.take r.record)
    rw [List.foldl_cons, htask, hgen]
    unfold ReportWriter.take
    split <;> exact ⟨rfl, rfl⟩

/-- The reports raised, with the COMMAND of a START whose numbers are on their way (R138, R174; log entry 18). -/
theorem State.takeRaised_eq {s : State} {numbers : List Raised}
    (hn : numbers = (match s.loader.installed, s.run.startCounts with
      | some _, some (h, c) => [s.reported .run (.command (.written 1) .accepted none .idle h c)]
      | _, _ => [])) : s.takeRaised =
    { s with
      run := { s.run with startCounts := none }, raised := [],
      report := s.report.takeAll (s.raised ++ numbers) } := by
  subst hn
  unfold State.takeRaised
  cases hi : s.loader.installed with
  | none =>
    cases hc : s.run.startCounts with
    | none => rw [State.bringCounts_none hc]; simp [← hc]
    | some x =>
      obtain ⟨h, c⟩ := x
      simp only [State.bringCounts, hc, State.commandReport]
      rw [State.raise_uninstalled _ _ (by exact hi)]
      simp
  | some i =>
    cases hc : s.run.startCounts with
    | none => rw [State.bringCounts_none hc]; simp [← hc]
    | some x =>
      obtain ⟨h, c⟩ := x
      rw [State.bringCounts_some hc hi]

/-- What the previous log leaves behind is counted by its kinds (R174). -/
theorem ReportWriter.abandoned_eq (w : ReportWriter) : w.abandoned =
    w.lostCount + w.queue.length + if (w.task.map (fun k => k.kind)) = some .record then 1 else 0 := by
  unfold ReportWriter.abandoned
  cases w.task with
  | none => rfl
  | some t => simp

/-- A word read before the last is not moved by it (R158). -/
theorem anchorWord_append {ws : List Word} {n : Nat} (w : Word) (h : n < ws.length) :
    anchorWord (ws ++ [w]) n = anchorWord ws n :=
  List.getD_append ws [w] 0 n h

/-- The installation of a valid block at every block of the part, with the port free (R84, R102, R133, R135, R160,
R174). -/
theorem State.install_free {s : State} {i : Installed} {ws : List Word} {numbers : List Raised} {l : Link}
    (hp : s.path.port = none) (hi : i = parseInstalled ws)
    (hn : numbers = (match s.loader.installed, s.run.startCounts with
      | some _, some (h, c) => [s.reported .run (.command (.written 1) .accepted none .idle h c)]
      | _, _ => []))
    (hl : l = { s.link with pickups := installedPickups ws s.link.pickups }) : s.install ws =
    { s with
      loader := { s.loader with installed := some i, load := none, heldMasks := Vector.replicate 4 none },
      chest := Chest.requestSweep .off Divisions.all
        { s.chest with divisions := installedDivisions ws s.loader.heldMasks, protectSeen := false },
      link := l,
      matcher := { s.matcher with lag := some (expiryLag l.largestDelay i.mergeSpan) },
      tracker := { s.tracker with
        position := 0, tempo := min i.tmax (max i.tmin 1920), lag := 0, remainder := 0,
        trail := List.replicate 512 0, returnState := none, resume := false, awaitingClear := false },
      run := { s.run with
        stampLow := if s.run.markLow then s.run.stampLow else anchorWord ws 72,
        stampHigh := if s.run.markHigh then s.run.stampHigh else anchorWord ws 73,
        nominal := if s.run.markNominal then s.run.nominal else anchorWord ws 74,
        startCounts := none },
      raised := [],
      report := { s.report with
        task := none, producer := 0, consumer := 0, lostCount := 0, lostTotal := 0, attn := false,
        refreshDue := true,
        queue :=
          [{ report := .anchor (.loaded i.slotCount i.logCount
              ((s.report.takeAll (s.raised ++ numbers)).lostCount
                + (s.report.takeAll (s.raised ++ numbers)).queue.length
                + if (s.report.task.map (fun k => k.kind)) = some .record then 1 else 0)),
             frame := s.link.frame, position := 0 }] } } := by
  obtain ⟨htask, hgen⟩ := s.report.takeAll_keeps (s.raised ++ numbers)
  subst hl hi
  unfold State.install
  rw [State.takeRaised_eq hn]
  simp only [State.requestSweep, Chest.silences, if_true, hp, discardReportWrite, abandonChestWrite,
    ReportWriter.install, ReportWriter.abandoned_eq, htask, hgen]
  rw [State.recomputeLag_installed (i := parseInstalled ws) (by rfl), ← hp]
  rfl

end Sys2Proof.Machine

open Sys2Proof Sys2Proof.Machine

/-- Settles O30: the five tests, the layout of the block, and the three ends of a load. -/
theorem loadJudgedAtWord77 : Obligations.LoadJudgedAtWord77 := by
  refine ⟨fun ws w sum regions legal hw hsum hregions hlegal => ?_, fun ws w held d signed a b hw hs ha hb => ?_,
    fun ws w old k p a b c hw hp ha hb hc => ?_, fun a ws numbers s hwait hport hload hlen hnumbers => ?_⟩
  · obtain rfl : w = wordsOf ws := funext hw
    have whole := parseInstalled_eq (ws := ws) rfl
    have judged : (parseInstalled ws).regionsLegal = true ↔ legal := by
      rw [Installed.regionsLegal_iff, hlegal, hregions, whole]
      rfl
    obtain rfl : sum = anchorSum ws := hsum
    refine ⟨anchorError_signature, anchorError_check, fun h0 hs => ⟨fun n hn hill hl => ?_, fun hl => ?_⟩, whole⟩
    · exact anchorError_range h0 hs (firstIllegalWord_some hn hill hl)
    · rw [anchorError_whole h0 hs (firstIllegalWord_none hl), show (parseInstalled ws).tmax = wordsOf ws 12 from rfl,
        show (parseInstalled ws).tmin = wordsOf ws 11 from rfl]
      refine ⟨fun h => if_pos h, fun h hlegal => ?_, fun h hlegal => ?_⟩
      · exact (if_neg (Nat.not_lt.2 h)).trans (if_neg (mt judged.1 hlegal))
      · exact (if_neg (Nat.not_lt.2 h)).trans (if_pos (judged.2 hlegal))
  · obtain rfl : w = wordsOf ws := funext hw
    rw [installedDivisions_get, parseDivision_eq _ hs, ha, hb]
    congr 1
    cases held[d] <;> rfl
  · obtain rfl : w = wordsOf ws := funext hw
    rw [installedPickups_get, parsePickup_eq, ← ha, ← hb, ← hc] at hp
    obtain ⟨q, hq, hentry, hparity, hstuck, hgood, hlive, hcode, hcand, hquiet, hoff, hlisten, hbegin⟩ :=
      Pickup.install_eq _ (old[k])
    rw [hp, hq, hquiet]
    refine ⟨hentry, hparity, hstuck, hgood, hlive, hcode, hcand, rfl, ?_⟩
    rw [hentry]
    exact ⟨hoff, hlisten, hbegin⟩
  · have row := exec_anchorReadDone hport
    have last : State.complete (.anchorRead a false) { s with path := { s.path with port := none } } =
        State.judgeAnchor (ws ++ [s.mem.read a]) { s with path := { s.path with port := none } } :=
      State.anchorReadWord_last _ (by exact hload) hlen
    rw [last] at row
    refine ⟨fun reason hbad hi => ?_, fun reason chest hbad hi hc hr hm => ?_, fun i hgood hc hi => ?_⟩
    · exact pumped row ((State.judgeAnchor_invalid hbad).trans (State.rejectAnchor_first reason (by exact hi))) hwait
    · obtain ⟨i, hi⟩ := Option.ne_none_iff_exists'.1 hi
      refine pumped row ((State.judgeAnchor_invalid hbad).trans
        (State.rejectAnchor_later (i := i) reason (by exact hi) (by exact hc) rfl (by exact hr) (hm.trans ?_))) hwait
      refine congrArg (fun x => { s.chest with divisions := Vector.ofFn x }) (funext fun d => ?_)
      cases s.loader.heldMasks[d] <;> rfl
    · have installed := State.install_free (s := { s with path := { s.path with port := none } })
        (ws := ws ++ [s.mem.read a]) rfl hi hnumbers rfl
      rw [anchorWord_append _ (by omega), anchorWord_append _ (by omega), anchorWord_append _ (by omega)] at installed
      obtain ⟨t, ht, same⟩ := pumped row ((State.judgeAnchor_valid hgood).trans installed) hwait
      refine ⟨t, ht, ?_, same⟩
      rw [same.chest]
      rfl
end

section
/-! The start of a frame (R59): the run controller's part of it, and the frames that the tracker and the matcher take in
a state of rest (R118, R120, R141, R145 to R148, R171). -/

namespace Sys2Proof.Machine

/-! ### The frame count and the refresh (R59, R171) -/

/-- The state in which the blocks take the start of the next frame, with nothing of the frame before left due. -/
def State.nextFrame (s : State) : State :=
  { s with
    link := { s.link with frame := s.link.frame + 1 },
    report := { s.report with refreshDue := s.report.refreshDue ||
      ((s.link.frame + 1).toNat % 20 == 0 && s.loader.installed.isSome) } }

theorem State.frameRefresh_eq (s : State) : s.frameRefresh = { s with report := { s.report with
    refreshDue := s.report.refreshDue || (s.link.frame.toNat % 20 == 0 && s.loader.installed.isSome) } } := by
  cases hi : s.loader.installed with
  | some i => simp [State.frameRefresh_installed hi]
  | none =>
    have kept : s.demandRefresh = s := by simp [State.demandRefresh, hi]
    simp [State.frameRefresh, kept]

/-- A FRAME_START that finds nothing due (R59, R171). -/
theorem exec_frameStart_quiet {s : State} (c w : Bool) (o : FrameOrder) (h : s.nothingDue) :
    exec (.frameStart c w o) s = .next (s.nextFrame.frameBlocks c w o).pump := by
  obtain ⟨-, -, -, -, begun, -⟩ := id h
  show execFrameStart c w o s = _
  have next : s.link.nextFrame = { s.link with frame := s.link.frame + 1 } := if_pos begun
  simp only [execFrameStart, State.finishFrame_quiet h, next, State.frameRefresh_eq]
  rfl

theorem State.nextFrame_installed {s : State} {i : Installed} (hi : s.loader.installed = some i) : s.nextFrame =
    { s with
      link := { s.link with frame := s.link.frame + 1 },
      report := { s.report with
        refreshDue := s.report.refreshDue || (s.link.frame + 1).toNat % 20 == 0 } } := by
  simp [State.nextFrame, hi]

/-- What a FRAME_START leaves of the sense link controller: the count (R59). -/
theorem exec_frameStart_link (c w : Bool) (o : FrameOrder) (s : State) :
    ∃ t, exec (.frameStart c w o) s = .next t ∧ t.link = s.link.nextFrame :=
  ⟨_, rfl, by simp⟩

/-- No pending-on entry waits for its gap while nothing sounds (R43). -/
theorem State.markDue_silent {s : State} (h : s.chest.sounding = []) : s.markDue = s := by
  unfold State.markDue
  cases s.loader.installed with
  | none => rfl
  | some i =>
    have kept : Table.mapValues SoundEntry.quiet (SoundEntry.becomeDue i.repeatGap s.link.frame) s.chest.sounding
        = s.chest.sounding := by
      rw [h]
      rfl
    exact congrArg (fun x => { s with chest := { s.chest with sounding := x } }) kept

/-! ### The run controller's part (R141, R144 to R148) -/

/-- The samples of a frame start that brings no CANCEL outcome (R141, R145). -/
def RunControl.sampled (cancel windok : Bool) (r : RunControl) : RunControl :=
  { r with cancelPrev := some cancel, windPrev := r.windLast, windLast := some windok, stage := .done }

theorem RunControl.sample_still {r : RunControl} {c : Bool} (w : Bool)
    (h1 : r.cancelHeld = false → c = false ∨ r.cancelPrev ≠ some true)
    (h2 : r.cancelHeld = true → c = true ∨ r.cancelPrev ≠ some false) : r.sample c w = r.sampled c w := by
  have silent : (!r.cancelHeld && c && r.cancelPrev == some true) = false := by
    cases hh : r.cancelHeld with
    | true => rfl
    | false => rcases h1 hh with h | h <;> simp [h]
  have silent' : (r.cancelHeld && !c && r.cancelPrev == some false) = false := by
    cases hh : r.cancelHeld with
    | false => rfl
    | true => rcases h2 hh with h | h <;> simp [h]
  unfold RunControl.sample
  rw [silent, silent']
  rfl

/-- The drop test goes by the two last samples of a CONFIRMED wind (R148). -/
theorem RunControl.sampled_drops (c w : Bool) (r : RunControl) :
    (r.sampled c w).drops = true ↔ r.wind = .confirmed ∧ r.windLast = some false ∧ w = false := by
  simp [RunControl.sampled, RunControl.drops, RunControl.bothLow, and_comm]

theorem RunControl.sampled_bothHigh (c w : Bool) (r : RunControl) :
    (r.sampled c w).bothHigh = true ↔ w = true ∧ r.windLast = some true := by
  simp [RunControl.sampled, RunControl.bothHigh]

theorem RunControl.readyDue_limitStep (windLimit : Nat) (r : RunControl) :
    (r.limitStep windLimit).readyDue = r.readyDue := by
  unfold RunControl.limitStep
  split
  · split <;> rfl
  · rfl

theorem RunControl.readyDue_unconfirmed {r : RunControl} (h : r.wind ≠ .confirmed) : r.readyDue = false := by
  simp [RunControl.readyDue, h]

theorem RunControl.readyDue_settleStep (windSettle : Nat) (r : RunControl) :
    (r.settleStep windSettle).readyDue = r.readyDue := by
  unfold RunControl.settleStep
  by_cases ha : r.announced = .winding
  · rw [if_pos ha]
    cases hw : r.wind with
    | unrequested | confirmed => rfl
    | unconfirmed | settling =>
      refine (RunControl.readyDue_unconfirmed ?_).trans (RunControl.readyDue_unconfirmed (by simp [hw])).symm
      dsimp only
      split
      · split <;> simp
      · simp [hw]
  · rw [if_neg ha]

/-- The limit and the hold behind the settle; the hold timer waits for a limit that is reached (R144, R147). -/
def RunControl.counted (windLimit : Nat) (r : RunControl) : RunControl :=
  if (r.limitStep windLimit).stage = .limit then r.limitStep windLimit else (r.limitStep windLimit).holdStep

/-- What the run controller alone does behind its samples, under WindSettle and WindLimit (R144, R146 to R148). -/
def RunControl.frameStep (settings : Nat × Nat) (r : RunControl) : RunControl :=
  if r.drops then { r with stage := .drop }
  else if (r.settleStep settings.1).stage = .confirm then r.settleStep settings.1
  else (r.settleStep settings.1).counted settings.2

/-- A frame start that brings no CANCEL outcome and no ready report is the run controller's alone. -/
theorem State.runFrame_alone {s : State} {c w : Bool} (hsample : s.run.sample c w = s.run.sampled c w)
    (hready : (s.run.sampled c w).drops = false → s.run.readyDue = false) :
    s.runFrame c w = { s with run := (s.run.sampled c w).frameStep s.windSettings } := by
  have settings : ∀ x, State.windSettings { s with run := x } = s.windSettings := fun _ => rfl
  have stage : (s.run.sampled c w).stage = .done := rfl
  unfold State.runFrame State.runAfterCancel RunControl.frameStep
  simp only [hsample, stage, if_true]
  cases hdrop : (s.run.sampled c w).drops with
  | true => rfl
  | false =>
    have silent : (((s.run.sampled c w).settleStep s.windSettings.1).limitStep s.windSettings.2).readyDue = false := by
      rw [RunControl.readyDue_limitStep, RunControl.readyDue_settleStep]
      exact hready hdrop
    unfold State.runAfterDrop State.runAfterSettle State.reportReady RunControl.counted
    simp only [settings, silent, Bool.false_eq_true, if_false]
    split
    · rfl
    · split <;> rfl

/-- The frame of a tracker and a matcher at rest is the trail entry and the run controller's own step. -/
theorem exec_frameStart_rest {s : State} {c w : Bool} {r : RunControl} (o : FrameOrder) (h : s.nothingDue)
    (ha : s.tracker.state.advancing = false) (hm : s.matcher.announced.running = false)
    (hsample : s.run.sample c w = s.run.sampled c w)
    (hready : (s.run.sampled c w).drops = false → s.run.readyDue = false)
    (hr : (s.run.sampled c w).frameStep s.windSettings = r) :
    ∃ t, exec (.frameStart c w o) s = .next t ∧
      sameButTraffic { s.nextFrame with
        run := r, tracker := s.tracker.record (s.link.frame + 1) } t := by
  obtain ⟨-, -, -, -, -, hwait⟩ := id h
  refine pumped (exec_frameStart_quiet c w o h) ?_ (by exact hwait)
  refine State.frameBlocks_still (s := s) o ha hm rfl rfl fun x hx hl => ?_
  have settings : x.windSettings = s.windSettings := by unfold State.windSettings; rw [hl]
  rw [State.runFrame_alone (by rw [hx]; exact hsample) (by rw [hx]; exact hready), hx, settings, hr]

/-- No settle, no limit and no hold runs, and the wind does not drop (R144 to R148). -/
theorem RunControl.frameStep_quiet {r : RunControl} (settings : Nat × Nat) (hdrop : r.drops = false)
    (ha : r.announced ≠ .winding) (hl : r.limitRunning = false) (hh : r.holdRunning = false)
    (hs : r.stage = .done) : r.frameStep settings = r := by
  have limited : r.limitStep settings.2 = r := if_neg (by simp [hl])
  have held : r.holdStep = r := if_neg (by simp [hh])
  simp [RunControl.frameStep, RunControl.counted, RunControl.settleStep_still _ (Or.inl ha), limited, held, hdrop, hs]

/-- With nothing due and nothing running (R118, R120, R141, R145, R171). -/
theorem frameStart_idle {s : State} (w : Bool) (o : FrameOrder) (h : s.nothingDue)
    (ha : s.tracker.state.advancing = false) (hm : s.matcher.announced.running = false)
    (hw : s.run.announced ≠ .winding) (hu : s.run.wind = .unrequested) (hl : s.run.limitRunning = false)
    (hh : s.run.holdRunning = false) (hc : s.run.cancelHeld = false) :
    ∃ t, exec (.frameStart false w o) s = .next t ∧
      sameButTraffic
        { s with
          link := { s.link with frame := s.link.frame + 1 },
          tracker := { s.tracker with
            trail := s.tracker.trail.set ((s.link.frame + 1).toNat % 512)
              (s.tracker.position / 65536) },
          run := { s.run with
            cancelPrev := some false, windPrev := s.run.windLast, windLast := some w },
          report := { s.report with
            refreshDue := s.report.refreshDue ||
              ((s.link.frame + 1).toNat % 20 == 0 && s.loader.installed.isSome) } } t := by
  obtain ⟨hstage, -, -, -, -, -⟩ := id h
  have stays : (s.run.sampled false w).drops = false := by
    simp [RunControl.sampled, RunControl.drops, hu]
  have step := RunControl.frameStep_quiet (r := s.run.sampled false w) s.windSettings stays hw hl hh rfl
  have quiet := RunControl.readyDue_unconfirmed (r := s.run) (by simp [hu])
  obtain ⟨t, ht, same⟩ := exec_frameStart_rest o h ha hm
    (RunControl.sample_still w (fun _ => Or.inl rfl) (by simp [hc])) (fun _ => quiet) step
  refine ⟨t, ht, ?_⟩
  rw [RunControl.sampled, ← hstage] at same
  exact same

end Sys2Proof.Machine
end

section
/-! The start of a frame at the run controller: the settle, the drop, the limit and the hold (R144 to R148). -/

namespace Sys2Proof.Machine

/-! ### The steps of the run controller by their cases -/

theorem RunControl.frameStep_drop {r : RunControl} (settings : Nat × Nat) (h : r.drops = true) :
    r.frameStep settings = { r with stage := .drop } :=
  if_pos h

theorem RunControl.frameStep_confirm {r q : RunControl} {settings : Nat × Nat} (h : r.drops = false)
    (hq : r.settleStep settings.1 = q) (hs : q.stage = .confirm) : r.frameStep settings = q := by
  subst hq
  simp [RunControl.frameStep, h, hs]

theorem RunControl.frameStep_settled {r q : RunControl} {settings : Nat × Nat} (h : r.drops = false)
    (hq : r.settleStep settings.1 = q) (hs : q.stage = .done) : r.frameStep settings = q.counted settings.2 := by
  subst hq
  simp [RunControl.frameStep, h, hs]

/-- Two high samples with WindSettle 0 confirm at once (R146). -/
theorem RunControl.settleStep_atOnce {r : RunControl} (ha : r.announced = .winding) (hw : r.wind = .unconfirmed)
    (hb : r.bothHigh = true) : r.settleStep 0 = { r with settle := 0, stage := .confirm } := by
  simp [RunControl.settleStep, ha, hw, hb]

/-- Two high samples begin the settle (R146). -/
theorem RunControl.settleStep_begins {r : RunControl} {windSettle : Nat} (ha : r.announced = .winding)
    (hw : r.wind = .unconfirmed) (hb : r.bothHigh = true) (h : 0 < windSettle) :
    r.settleStep windSettle = { r with wind := .settling, settle := 0 } := by
  simp [RunControl.settleStep, ha, hw, hb, Nat.ne_of_gt h]

/-- Without two high samples an UNCONFIRMED wind stays so (R146). -/
theorem RunControl.settleStep_unconfirmed {r : RunControl} {windSettle : Nat} (hw : r.wind = .unconfirmed)
    (hb : r.bothHigh = false) : r.settleStep windSettle = r := by
  simp [RunControl.settleStep, hw, hb]

/-- A high sample raises the settle (R146). -/
theorem RunControl.settleStep_rises {r : RunControl} {windSettle : Nat} (ha : r.announced = .winding)
    (hw : r.wind = .settling) (hl : r.windLast = some true) (h : r.settle + 1 < windSettle) :
    r.settleStep windSettle = { r with settle := r.settle + 1 } := by
  simp [RunControl.settleStep, ha, hw, hl, Nat.not_le.2 h]

/-- The high sample that brings the settle to WindSettle confirms (R146). -/
theorem RunControl.settleStep_ends {r : RunControl} {windSettle : Nat} (ha : r.announced = .winding)
    (hw : r.wind = .settling) (hl : r.windLast = some true) (h : windSettle ≤ r.settle + 1) :
    r.settleStep windSettle = { r with settle := r.settle + 1, stage := .confirm } := by
  simp [RunControl.settleStep, ha, hw, hl, h]

/-- A low sample ends the settle (R146). -/
theorem RunControl.settleStep_falls {r : RunControl} {windSettle : Nat} (ha : r.announced = .winding)
    (hw : r.wind = .settling) (hl : r.windLast = some false) :
    r.settleStep windSettle = { r with wind := .unconfirmed, settle := 0 } := by
  simp [RunControl.settleStep, ha, hw, hl]

/-- A CONFIRMED wind settles no more (R146). -/
theorem RunControl.settleStep_confirmed {r : RunControl} {windSettle : Nat} (hw : r.wind = .confirmed) :
    r.settleStep windSettle = r := by
  simp [RunControl.settleStep, hw]

/-- The limit is reached, and the hold timer waits for its row (R147; log entry 28). -/
theorem RunControl.counted_limit {r : RunControl} {windLimit : Nat} (hr : r.limitRunning = true)
    (hw : r.wind ≠ .confirmed) (h : windLimit ≤ r.limit + 1) : r.counted windLimit = { r with stage := .limit } := by
  have reached : r.limitStep windLimit = { r with stage := .limit } := by simp [RunControl.limitStep, hr, hw, h]
  simp [RunControl.counted, reached]

/-- The limit is not reached: the counter rises, if it runs, and the hold timer takes its step (R144, R147). -/
theorem RunControl.counted_free {r : RunControl} {windLimit : Nat} (hs : r.stage = .done)
    (h : r.limitRunning = true → r.wind = .confirmed ∨ r.limit + 1 < windLimit) : r.counted windLimit =
    (if r.limitRunning then { r with limit := min 65535 (r.limit + 1) } else r : RunControl).holdStep := by
  have free : r.limitStep windLimit = if r.limitRunning then { r with limit := min 65535 (r.limit + 1) } else r := by
    unfold RunControl.limitStep
    split
    next hr =>
      refine if_neg ?_
      rintro ⟨hle, hne⟩
      rcases h hr with h | h
      · exact hne h
      · omega
    · rfl
  have stage : (r.limitStep windLimit).stage ≠ .limit := by
    rw [free]
    split <;> simp [hs]
  rw [RunControl.counted, if_neg stage, free]

/-- What the settle of a frame start makes of the samples, short of a confirmation (R145, R146): `settled` is the run
controller in front of the counters. -/
def RunControl.SettlesTo (windSettle : Nat) (c w : Bool) (r settled : RunControl) : Prop :=
  r.announced = .winding ∧ r.wind = .unconfirmed ∧ r.windLast = some true ∧ w = true
      ∧ 0 < windSettle ∧ settled = { r.sampled c w with wind := .settling, settle := 0 }
    ∨ r.announced = .winding ∧ r.wind = .unconfirmed
      ∧ (r.windLast ≠ some true ∨ w = false) ∧ settled = r.sampled c w
    ∨ r.announced = .winding ∧ r.wind = .settling ∧ w = true
      ∧ r.settle + 1 < windSettle ∧ settled = { r.sampled c w with settle := r.settle + 1 }
    ∨ r.announced = .winding ∧ r.wind = .settling ∧ w = false
      ∧ settled = { r.sampled c w with wind := .unconfirmed, settle := 0 }
    ∨ (r.announced ≠ .winding ∨ r.wind = .confirmed ∧ r.readyReported = true)
      ∧ (r.wind = .confirmed → w = true ∨ r.windLast ≠ some false)
      ∧ settled = r.sampled c w

/-- The wind does not drop at the samples. -/
theorem RunControl.sampled_stays {c w : Bool} {r : RunControl}
    (h : r.wind = .confirmed → w = true ∨ r.windLast ≠ some false) : (r.sampled c w).drops = false := by
  rw [Bool.eq_false_iff, Ne, RunControl.sampled_drops]
  rintro ⟨hc, hl, hw⟩
  rcases h hc with h | h
  · exact absurd (h.symm.trans hw) nofun
  · exact h hl

/-- The settle by its cases, and what it leaves for the counters. -/
structure RunControl.Settled (windSettle : Nat) (c w : Bool) (r settled : RunControl) : Prop where
  stays        : (r.sampled c w).drops = false
  silent       : r.readyDue = false
  step         : (r.sampled c w).settleStep windSettle = settled
  stage        : settled.stage = .done
  limitRunning : settled.limitRunning = r.limitRunning
  limit        : settled.limit = r.limit
  holdRunning  : settled.holdRunning = r.holdRunning
  hold         : settled.hold = r.hold

theorem RunControl.SettlesTo.settled {windSettle : Nat} {c w : Bool} {r settled : RunControl}
    (h : r.SettlesTo windSettle c w settled) : r.Settled windSettle c w settled := by
  have unready : r.wind ≠ .confirmed → (r.sampled c w).drops = false ∧ r.readyDue = false := fun h =>
    ⟨RunControl.sampled_stays (fun hc => absurd hc h), RunControl.readyDue_unconfirmed h⟩
  rcases h with ⟨ha, hw, hl, rfl, h0, rfl⟩ | ⟨ha, hw, hl, rfl⟩ | ⟨ha, hw, rfl, hn, rfl⟩ | ⟨ha, hw, rfl, rfl⟩
    | ⟨ha, hw, rfl⟩
  · obtain ⟨hd, hq⟩ := unready (by simp [hw])
    exact ⟨hd, hq, RunControl.settleStep_begins ha hw ((RunControl.sampled_bothHigh _ _ _).2 ⟨rfl, hl⟩) h0,
      rfl, rfl, rfl, rfl, rfl⟩
  · obtain ⟨hd, hq⟩ := unready (by simp [hw])
    have low : (r.sampled c w).bothHigh = false := by
      rw [Bool.eq_false_iff, Ne, RunControl.sampled_bothHigh]
      rintro ⟨rfl, h⟩
      rcases hl with hl | hl
      · exact hl h
      · cases hl
    exact ⟨hd, hq, RunControl.settleStep_unconfirmed hw low, rfl, rfl, rfl, rfl, rfl⟩
  · obtain ⟨hd, hq⟩ := unready (by simp [hw])
    exact ⟨hd, hq, RunControl.settleStep_rises ha hw rfl hn, rfl, rfl, rfl, rfl, rfl⟩
  · obtain ⟨hd, hq⟩ := unready (by simp [hw])
    exact ⟨hd, hq, RunControl.settleStep_falls ha hw rfl, rfl, rfl, rfl, rfl, rfl⟩
  · refine ⟨RunControl.sampled_stays hw, ?_, ?_, rfl, rfl, rfl, rfl, rfl⟩
    · rcases ha with ha | ⟨hc, hr⟩
      · simp [RunControl.readyDue, ha]
      · simp [RunControl.readyDue, hr]
    · rcases ha with ha | ⟨hc, hr⟩
      · exact RunControl.settleStep_still _ (Or.inl ha)
      · exact RunControl.settleStep_confirmed hc

/-- The frame step behind a settle short of a confirmation (R144, R147). -/
theorem RunControl.Settled.frameStep {windSettle windLimit : Nat} {c w : Bool} {r settled : RunControl}
    (h : r.Settled windSettle c w settled) :
    (r.sampled c w).frameStep (windSettle, windLimit) = settled.counted windLimit :=
  RunControl.frameStep_settled h.stays h.step h.stage

/-! ### The frame of a run controller with the tracker at rest -/

/-- The run controller has become r at a frame start at which the tracker and the matcher rest. -/
def FrameTaken (c w : Bool) (o : FrameOrder) (s : State) (r : RunControl) : Prop :=
  ∃ t, exec (.frameStart c w o) s = .next t ∧
    sameButTraffic
      { s with
        link := { s.link with frame := s.link.frame + 1 },
        tracker := { s.tracker with
          trail := s.tracker.trail.set ((s.link.frame + 1).toNat % 512) (s.tracker.position / 65536) },
        run := r,
        report := { s.report with
          refreshDue := s.report.refreshDue || (s.link.frame + 1).toNat % 20 == 0 } } t

section
variable {c w : Bool} {o : FrameOrder} {s : State} {i : Installed} (h : s.nothingDue)
  (hi : s.loader.installed = some i) (ha : s.tracker.state.advancing = false)
  (hm : s.matcher.announced.running = false) (hsample : s.run.sample c w = s.run.sampled c w)
include h hi ha hm hsample

theorem frameTaken_step {r : RunControl} (hready : (s.run.sampled c w).drops = false → s.run.readyDue = false)
    (hr : (s.run.sampled c w).frameStep (i.windSettle, i.windLimit) = r) : FrameTaken c w o s r := by
  have settings : s.windSettings = (i.windSettle, i.windLimit) := by simp [State.windSettings, hi]
  obtain ⟨t, ht, same⟩ := exec_frameStart_rest (r := r) o h ha hm hsample hready (by rw [settings, hr])
  rw [State.nextFrame_installed hi] at same
  exact ⟨t, ht, same⟩

/-- The drop of a CONFIRMED wind is due (R148). -/
theorem frameTaken_drop (hw : s.run.wind = .confirmed) (hl : s.run.windLast = some false) (hlow : w = false) :
    FrameTaken c w o s { s.run.sampled c w with stage := .drop } := by
  have drops := (RunControl.sampled_drops c w s.run).2 ⟨hw, hl, hlow⟩
  exact frameTaken_step h hi ha hm hsample (by simp [drops]) (RunControl.frameStep_drop _ drops)

/-- A confirmation is due (R146). -/
theorem frameTaken_confirm {r : RunControl} (hw : s.run.wind ≠ .confirmed)
    (hr : (s.run.sampled c w).settleStep i.windSettle = r) (hs : r.stage = .confirm) : FrameTaken c w o s r :=
  frameTaken_step h hi ha hm hsample (fun _ => RunControl.readyDue_unconfirmed hw)
    (RunControl.frameStep_confirm (RunControl.sampled_stays (fun hc => absurd hc hw)) hr hs)

/-- The settle, the limit and the hold of a frame start (R144 to R147). -/
theorem frameTaken_counters {settled counted : RunControl}
    (hs : s.run.SettlesTo i.windSettle c w settled)
    (hc : counted = if s.run.limitRunning then { settled with limit := min 65535 (s.run.limit + 1) } else settled) :
    (s.run.limitRunning = true → settled.wind ≠ .confirmed → i.windLimit ≤ s.run.limit + 1 →
        FrameTaken c w o s { settled with stage := .limit })
      ∧ ((s.run.limitRunning = true → settled.wind = .confirmed ∨ s.run.limit + 1 < i.windLimit) →
        (s.run.holdRunning = false → FrameTaken c w o s counted)
        ∧ (s.run.holdRunning = true → 1 < s.run.hold → FrameTaken c w o s { counted with hold := s.run.hold - 1 })
        ∧ (s.run.holdRunning = true → s.run.hold ≤ 1 → FrameTaken c w o s { counted with stage := .hold })) := by
  have done := hs.settled
  have taken : ∀ {r}, settled.counted i.windLimit = r → FrameTaken c w o s r := fun hr =>
    frameTaken_step h hi ha hm hsample (fun _ => done.silent) (done.frameStep.trans hr)
  rw [← done.limitRunning, ← done.limit, ← done.holdRunning, ← done.hold] at *
  refine ⟨fun hrun hwind hlim => taken (RunControl.counted_limit hrun hwind hlim), fun hfree => ?_⟩
  have counts := RunControl.counted_free done.stage hfree
  rw [← hc] at counts
  have running : counted.holdRunning = settled.holdRunning := by rw [hc]; split <;> rfl
  have held : counted.hold = settled.hold := by rw [hc]; split <;> rfl
  rw [← running, ← held]
  refine ⟨fun hh => taken (counts.trans (if_neg (by simp [hh]))), fun hh hlt => ?_, fun hh hle => ?_⟩
  · exact taken (counts.trans ((if_pos hh).trans (if_neg (by omega))))
  · exact taken (counts.trans ((if_pos hh).trans (if_pos hle)))
end

end Sys2Proof.Machine
end

section
/-! The expiry test of a frame start (R102 to R104): the misses one after another, and the Loss among them. -/

namespace Sys2Proof.Machine

/-! ### The wait stamp of a part of the cue list (R100) -/

theorem leastWait_none {l : List CueEntry} : leastWait l = none ↔ ∀ e ∈ l, e.wait = false := by
  induction l with
  | nil => simp [leastWait]
  | cons e l ih =>
    cases hw : e.wait with
    | false => simp [leastWait, hw, ih]
    | true => cases hl : leastWait l <;> simp [leastWait, hw, hl]

theorem leastWait_some {l : List CueEntry} {a : Nat} :
    leastWait l = some a ↔ (∃ e ∈ l, e.wait = true ∧ e.stamp = a) ∧ ∀ e ∈ l, e.wait = true → a ≤ e.stamp := by
  induction l generalizing a with
  | nil => simp [leastWait]
  | cons e l ih =>
    cases hw : e.wait with
    | false => simp [leastWait, hw, ih]
    | true =>
      cases hl : leastWait l with
      | none =>
        have plain := leastWait_none.1 hl
        have none' : ∀ f ∈ l, f.wait ≠ true := fun f hf => by simp [plain f hf]
        simp only [leastWait, hw, hl, if_true, Option.some.injEq, List.mem_cons]
        constructor
        · rintro rfl
          exact ⟨⟨e, Or.inl rfl, hw, rfl⟩, fun f hf hwf => by
            rcases hf with rfl | hf
            · exact Nat.le_refl _
            · exact absurd hwf (none' f hf)⟩
        · rintro ⟨⟨f, rfl | hf, hwf, hs⟩, -⟩
          · exact hs
          · exact absurd hwf (none' f hf)
      | some b =>
        obtain ⟨⟨f, hf, hwf, hs⟩, hle⟩ := ih.1 hl
        simp only [leastWait, hw, hl, if_true, Option.some.injEq, List.mem_cons]
        constructor
        · rintro rfl
          refine ⟨?_, fun g hg hwg => ?_⟩
          · rcases Nat.le_total e.stamp b with h | h
            · exact ⟨e, Or.inl rfl, hw, (Nat.min_eq_left h).symm⟩
            · exact ⟨f, Or.inr hf, hwf, by rw [Nat.min_eq_right h, hs]⟩
          · rcases hg with rfl | hg
            · exact Nat.min_le_left _ _
            · exact Nat.le_trans (Nat.min_le_right _ _) (hle g hg hwg)
        · rintro ⟨⟨g, hg, hwg, hsg⟩, hall⟩
          have h1 := hall e (Or.inl rfl) hw
          have h2 := hall f (Or.inr hf) hwf
          rcases hg with rfl | hg
          · omega
          · have h3 := hle g hg hwg
            omega

/-- Removals that end at the wait stamp they began with leave it alone throughout. -/
theorem leastWait_between {l m n : List CueEntry} (hlm : ∀ e ∈ l, e ∈ m) (hmn : ∀ e ∈ m, e ∈ n)
    (h : leastWait l = leastWait n) : leastWait m = leastWait n := by
  cases hn : leastWait n with
  | none => exact leastWait_none.2 fun e he => leastWait_none.1 hn e (hmn e he)
  | some a =>
    obtain ⟨⟨e, he, hw, hs⟩, -⟩ := leastWait_some.1 (h.trans hn)
    exact leastWait_some.2 ⟨⟨e, hlm e he, hw, hs⟩, fun f hf => (leastWait_some.1 hn).2 f (hmn f hf)⟩

/-! ### The cues that a trail position has passed (R103) -/

/-- The cues of a list that the trail position has passed, and those that it keeps; the wait stamp of the kept ones is
that of the list. -/
structure Misses (trail : Nat) (missed kept cues : List CueEntry) : Prop where
  missed   : cues.filter (CueEntry.missedAt trail) = missed
  kept     : cues.filter (fun e => !e.missedAt trail) = kept
  distinct : (cues.map (fun e => e.slot)).Nodup
  least    : leastWait (cues.filter (fun e => !e.missedAt trail)) = leastWait cues

/-- The first cue missed is the one that the test finds (R103). -/
theorem Misses.find {trail : Nat} {e : CueEntry} {rest kept cues : List CueEntry}
    (h : Misses trail (e :: rest) kept cues) : cues.find? (CueEntry.missedAt trail) = some e := by
  rw [← List.head?_filter, h.missed]
  rfl

theorem Misses.find_none {trail : Nat} {kept cues : List CueEntry} (h : Misses trail [] kept cues) :
    cues.find? (CueEntry.missedAt trail) = none := by
  rw [← List.head?_filter, h.missed]
  rfl

/-- With no cue missed, the kept cues are all of them. -/
theorem Misses.kept_all {trail : Nat} {kept cues : List CueEntry} (h : Misses trail [] kept cues) : cues = kept := by
  rw [← h.kept]
  refine (List.filter_eq_self.2 fun e he => ?_).symm
  have := List.filter_eq_nil_iff.1 h.missed e he
  simpa using this

/-- A missed cue leaves, and the others stand as they did (R103). -/
theorem Misses.remove {trail : Nat} {e : CueEntry} {rest kept cues : List CueEntry}
    (h : Misses trail (e :: rest) kept cues) : Misses trail rest kept (cueRemove e.slot cues) := by
  have he : e ∈ cues ∧ e.missedAt trail = true := List.mem_filter.1 (h.missed ▸ List.mem_cons_self)
  have others : ∀ f ∈ kept, f.slot ≠ e.slot := by
    intro f hf hs
    obtain ⟨hfc, hfk⟩ := List.mem_filter.1 (h.kept ▸ hf)
    rw [List.inj_on_of_nodup_map h.distinct hfc he.1 hs, he.2] at hfk
    cases hfk
  have later : ∀ f ∈ rest, f.slot ≠ e.slot := by
    have apart := h.distinct.sublist ((List.filter_sublist (p := CueEntry.missedAt trail)).map (fun e => e.slot))
    rw [h.missed, List.map_cons, List.nodup_cons] at apart
    intro f hf hs
    exact apart.1 (hs ▸ List.mem_map_of_mem hf)
  have keeps : ∀ l : List CueEntry, (∀ f ∈ l, f.slot ≠ e.slot) → l.filter (fun f => f.slot != e.slot) = l :=
    fun l hl => List.filter_eq_self.2 fun f hf => bne_iff_ne.2 (hl f hf)
  have kept' : (cueRemove e.slot cues).filter (fun e => !e.missedAt trail) = kept := by
    rw [cueRemove, List.filter_comm, h.kept, keeps kept others]
  refine ⟨?_, kept', h.distinct.sublist (List.filter_sublist.map _), ?_⟩
  · rw [cueRemove, List.filter_comm, h.missed, List.filter_cons_of_neg (by simp), keeps rest later]
  · have least : leastWait kept = leastWait cues := h.kept ▸ h.least
    rw [kept']
    refine least.trans (leastWait_between (l := kept) (fun f hf => ?_) (fun f hf => ?_) least).symm
    · exact (List.mem_filter.1 (kept'.symm ▸ hf)).1
    · exact (List.mem_filter.1 hf).1

/-- The removal of a missed cue leaves the wait stamp as it is (R100). -/
theorem Misses.remove_least {trail : Nat} {e : CueEntry} {rest kept cues : List CueEntry}
    (h : Misses trail (e :: rest) kept cues) : leastWait (cueRemove e.slot cues) = leastWait cues := by
  rw [← h.least, h.kept, ← h.remove.kept, h.remove.least]

/-! ### Misses that bring no Loss (R104) -/

/-- The counts after n misses that bring no Loss (R104). -/
def Matcher.counts (n : Nat) (m : Matcher) : Matcher :=
  match m.announced with
  | .leading | .coasting => if n = 0 then m else { m with capture := 0, miss := 0 }
  | .following => { m with miss := m.miss + n }
  | .idle | .winding | .waiting | .halted | .stopping => m

theorem Matcher.counts_zero (m : Matcher) : m.counts 0 = m := by
  unfold Matcher.counts
  split <;> rfl

/-- One miss, and n more. -/
theorem Matcher.counts_succ (n : Nat) (q : List CueEntry) (m : Matcher) :
    ({ m.counts 1 with cues := q } : Matcher).counts n = { m.counts (n + 1) with cues := q } := by
  unfold Matcher.counts
  cases ha : m.announced <;> simp [ha, Nat.add_comm, Nat.add_left_comm]

theorem Matcher.counts_announced (n : Nat) (m : Matcher) : (m.counts n).announced = m.announced := by
  unfold Matcher.counts
  split
  · split <;> rfl
  · split <;> rfl
  all_goals rfl

theorem Matcher.countMiss_counts {lossLimit : Nat} {m : Matcher} (hr : m.announced.running = true)
    (h : m.announced = .following → m.miss + 1 < lossLimit) :
    m.countMiss lossLimit = (m.counts 1, m.announced != .waiting, false) := by
  unfold Matcher.countMiss Matcher.counts
  cases ha : m.announced with
  | idle | winding | halted | stopping => rw [ha] at hr; cases hr
  | leading | coasting | waiting => rfl
  | following => exact if_neg (Nat.not_le.2 (h ha))

/-- The state after misses that bring no Loss, with the cues that are left (R16, R104). -/
def State.afterMisses (missed : List CueEntry) (left : List CueEntry) (s : State) : State :=
  { s with
    matcher := { s.matcher.counts missed.length with cues := left },
    admission := { s.admission with
      slots := missed.foldl (fun m e => Table.set .free m e.slot .free) s.admission.slots },
    raised := s.raised ++
      missed.map (fun e => s.reported .matcher (missReport e false (s.matcher.announced != .waiting))) }

theorem State.afterMisses_nil (s : State) : s.afterMisses [] s.matcher.cues = s := by
  simp [State.afterMisses, Matcher.counts_zero]

theorem State.afterMisses_cons (e : CueEntry) (l q left : List CueEntry) (s : State) :
    (s.afterMisses [e] q).afterMisses l left = s.afterMisses (e :: l) left := by
  have matcher := congrArg (fun m : Matcher => ({ m with cues := left } : Matcher))
    (Matcher.counts_succ l.length q s.matcher)
  have raised : (s.afterMisses [e] q).raised ++ l.map (fun x => (s.afterMisses [e] q).reported .matcher
        (missReport x false ((s.afterMisses [e] q).matcher.announced != .waiting)))
      = s.raised ++ (e :: l).map (fun x => s.reported .matcher
        (missReport x false (s.matcher.announced != .waiting))) := by
    rw [show (s.afterMisses [e] q).matcher.announced = s.matcher.announced from Matcher.counts_announced 1 s.matcher]
    simp [State.afterMisses, State.reported]
  exact congrArg₂ (fun (m : Matcher) (r : List Raised) => ({ s with
    matcher := m,
    admission := { s.admission with
      slots := (e :: l).foldl (fun m e => Table.set .free m e.slot .free) s.admission.slots },
    raised := r } : State)) matcher raised

/-- One miss that brings no Loss (R104). -/
theorem State.applyMatcher_miss {s : State} {i : Installed} {trail lossLimit : Nat} {e : CueEntry}
    {rest kept : List CueEntry} (hi : s.loader.installed = some i) (hr : s.matcher.announced.running = true)
    (hq : Misses trail (e :: rest) kept s.matcher.cues) (hw : s.matcher.waitStamp = s.tracker.waitStamp)
    (hl : s.matcher.announced = .following → s.matcher.miss + 1 < lossLimit) :
    ∃ r, s.matcher.expireOne lossLimit trail = some r
      ∧ s.applyMatcher r = s.afterMisses [e] (cueRemove e.slot s.matcher.cues) := by
  refine ⟨_, by rw [Matcher.expireOne, hq.find], ?_⟩
  rw [Matcher.countMiss_counts hr hl]
  unfold State.applyMatcher
  rw [State.raiseAll_installed (i := i) _ _ (by exact hi), State.freeSlots_fold]
  have kept' : leastWait (cueRemove e.slot s.matcher.cues) = s.tracker.waitStamp :=
    hq.remove_least.trans hw
  refine (State.deliver_unchanged (by exact kept')).trans ?_
  rfl

/-- Misses in list order that bring no Loss, ahead of the rest of them (R103, R104). -/
theorem State.expireCues_misses (trail lossLimit fuel : Nat) {i : Installed} {pre rest kept : List CueEntry} {s : State}
    (hi : s.loader.installed = some i) (hr : s.matcher.announced.running = true)
    (hq : Misses trail (pre ++ rest) kept s.matcher.cues) (hw : s.matcher.waitStamp = s.tracker.waitStamp)
    (hl : s.matcher.announced = .following → s.matcher.miss + pre.length < lossLimit) :
    ∃ left, Misses trail rest kept left ∧ leastWait left = s.tracker.waitStamp
      ∧ State.expireCues lossLimit trail (pre.length + fuel) s
        = State.expireCues lossLimit trail fuel (s.afterMisses pre left) := by
  induction pre generalizing s with
  | nil =>
    refine ⟨s.matcher.cues, hq, hw, ?_⟩
    rw [State.afterMisses_nil, List.length_nil, Nat.zero_add]
  | cons e pre ih =>
    have hlen : (e :: pre).length = pre.length + 1 := rfl
    obtain ⟨r, hone, happly⟩ := State.applyMatcher_miss (lossLimit := lossLimit) hi hr hq hw
      (fun ha => by have := hl ha; omega)
    have later : (s.matcher.counts 1).announced = .following → (s.matcher.counts 1).miss + pre.length < lossLimit := by
      intro ha
      rw [Matcher.counts_announced] at ha
      have := hl ha
      simp only [Matcher.counts, ha]
      omega
    obtain ⟨left, hleft, hleast, hrun⟩ := ih (s := s.afterMisses [e] (cueRemove e.slot s.matcher.cues)) hi
      ((congrArg _ (Matcher.counts_announced 1 s.matcher)).trans hr) hq.remove (hq.remove_least.trans hw) later
    refine ⟨left, hleft, hleast, ?_⟩
    rw [hlen, Nat.add_right_comm, State.expireCues, hone]
    dsimp only
    rw [happly, hrun, State.afterMisses_cons]

/-- Nothing more is missed (R103). -/
theorem State.expireCues_none {trail : Nat} {s : State} (lossLimit fuel : Nat)
    (hq : s.matcher.cues.find? (CueEntry.missedAt trail) = none) :
    State.expireCues lossLimit trail fuel s = s := by
  cases fuel with
  | zero => rfl
  | succ n => simp [State.expireCues, Matcher.expireOne, hq]

theorem Misses.length_le {trail : Nat} {missed kept cues : List CueEntry} (h : Misses trail missed kept cues) :
    missed.length ≤ cues.length :=
  h.missed ▸ List.length_filter_le _ _

/-- All the misses of a frame start, without a Loss (R103, R104). -/
theorem State.expireCues_counted {trail lossLimit : Nat} {i : Installed} {missed kept : List CueEntry} {s : State}
    (hi : s.loader.installed = some i) (hr : s.matcher.announced.running = true)
    (hq : Misses trail missed kept s.matcher.cues) (hw : s.matcher.waitStamp = s.tracker.waitStamp)
    (hl : s.matcher.announced = .following → s.matcher.miss + missed.length < lossLimit) :
    State.expireCues lossLimit trail s.matcher.cues.length s = s.afterMisses missed kept := by
  obtain ⟨left, hleft, -, hrun⟩ := State.expireCues_misses (pre := missed) (rest := []) trail lossLimit
    (s.matcher.cues.length - missed.length) hi hr (by rw [List.append_nil]; exact hq) hw hl
  rw [Nat.add_sub_cancel' hq.length_le, State.expireCues_none _ _ (s := s.afterMisses missed left) hleft.find_none,
    hleft.kept_all] at hrun
  exact hrun

/-! ### The miss that brings Loss (R104, R123) -/

/-- The state after the miss that brings Loss, with COASTING entered, and the cues that are left (R104, R123). -/
def State.afterLoss (e : CueEntry) (left : List CueEntry) (s : State) : State :=
  { s with
    tracker := { s.tracker with state := .coasting, returnState := none },
    matcher := { s.matcher with
      cues := left, capture := 0, miss := 0, announced := .coasting, expiryDue := false },
    admission := { s.admission with slots := Table.set .free s.admission.slots e.slot .free },
    fuser := { s.fuser with running := true },
    run := { s.run with announced := .coasting },
    loader := { s.loader with announced := .coasting },
    report := { s.report with refreshDue := true },
    raised := s.raised ++ [s.reported .matcher (missReport e false true),
      s.reported .tracker (.state .following .coasting .loss)] }

/-- Loss takes a tracker in FOLLOWING into COASTING (R123). -/
theorem State.deliver_loss {s : State} {i : Installed} (hi : s.loader.installed = some i)
    (ht : s.tracker.state = .following) (hw : s.matcher.waitStamp = s.tracker.waitStamp) :
    s.deliver (some .loss) = s.changeState .coasting .loss := by
  have taken : s.tracker.deliver i s.link.frame s.tracker.waitStamp (some .loss) =
      { tracker := s.tracker, reports := [], changes := [(.coasting, .loss)] } := by
    show Tracker.takeLoss s.tracker = _
    simp [Tracker.takeLoss, ht]
  simp only [State.deliver, hw, hi, reduceCtorEq, and_false, if_false, if_true, taken]
  rfl

theorem State.applyMatcher_loss {s : State} {i : Installed} {trail lossLimit : Nat} {e : CueEntry}
    {rest kept : List CueEntry} (hi : s.loader.installed = some i) (ha : s.matcher.announced = .following)
    (ht : s.tracker.state = .following) (hq : Misses trail (e :: rest) kept s.matcher.cues)
    (hw : s.matcher.waitStamp = s.tracker.waitStamp) (hl : lossLimit ≤ s.matcher.miss + 1) :
    ∃ r, s.matcher.expireOne lossLimit trail = some r
      ∧ s.applyMatcher r = s.afterLoss e (cueRemove e.slot s.matcher.cues) := by
  have lost : s.matcher.countMiss lossLimit = ({ s.matcher with capture := 0, miss := 0 }, true, true) := by
    simp [Matcher.countMiss, ha, hl]
  refine ⟨_, by rw [Matcher.expireOne, hq.find], ?_⟩
  rw [lost]
  unfold State.applyMatcher
  rw [State.raiseAll_installed (i := i) _ _ (by exact hi), State.freeSlots_fold]
  refine (State.deliver_loss (i := i) (by exact hi) (by exact ht) (by exact hq.remove_least.trans hw)).trans ?_
  rw [State.changeState_running (i := i) (by exact hi) rfl (by simp [ht])]
  simp [State.afterLoss, State.reported, Tracker.enter, Tracker.integer, Matcher.announce, ht]

/-- The cues left in between are of no account. -/
theorem State.afterLoss_left (e : CueEntry) (l left left' kept : List CueEntry) (s : State) :
    (s.afterLoss e left).afterMisses l kept = (s.afterLoss e left').afterMisses l kept := by
  unfold State.afterMisses State.afterLoss Matcher.counts
  cases l <;> rfl

/-- The misses of a frame start among which one brings Loss: those ahead of it count in FOLLOWING, those behind it in
COASTING (R103, R104). -/
def State.withLoss (before : List CueEntry) (e : CueEntry) (after kept : List CueEntry) (s : State) : State :=
  ((s.afterMisses before kept).afterLoss e kept).afterMisses after kept

theorem State.expireCues_loss {trail lossLimit : Nat} {i : Installed} {before after kept : List CueEntry} {e : CueEntry}
    {s : State} (hi : s.loader.installed = some i) (ha : s.matcher.announced = .following)
    (ht : s.tracker.state = .following) (hq : Misses trail (before ++ e :: after) kept s.matcher.cues)
    (hw : s.matcher.waitStamp = s.tracker.waitStamp) (hl : s.matcher.miss + before.length + 1 = lossLimit) :
    State.expireCues lossLimit trail s.matcher.cues.length s = s.withLoss before e after kept := by
  have enough := hq.length_le
  rw [List.length_append, List.length_cons] at enough
  obtain ⟨left, hleft, hleast, hrun⟩ := State.expireCues_misses (pre := before) (rest := e :: after) trail lossLimit
    (s.matcher.cues.length - before.length) hi (by rw [ha]; rfl) hq hw (fun _ => by omega)
  have miss : (s.afterMisses before left).matcher.miss = s.matcher.miss + before.length := by
    simp [State.afterMisses, Matcher.counts, ha]
  obtain ⟨r, hone, happly⟩ := State.applyMatcher_loss (s := s.afterMisses before left) (lossLimit := lossLimit) hi
    ((Matcher.counts_announced _ _).trans ha) ht hleft hleast (by omega)
  have hleft' := hleft.remove
  obtain ⟨last, hlast, -, hend⟩ := State.expireCues_misses (pre := after) (rest := [])
    (s := (s.afterMisses before left).afterLoss e (cueRemove e.slot left)) trail lossLimit
    (s.matcher.cues.length - before.length - 1 - after.length) hi rfl (by rw [List.append_nil]; exact hleft')
    (hleft.remove_least.trans hleast) nofun
  have fuel : s.matcher.cues.length = before.length + (s.matcher.cues.length - before.length) := by omega
  have fuel' : s.matcher.cues.length - before.length
      = after.length + (s.matcher.cues.length - before.length - 1 - after.length) + 1 := by omega
  rw [fuel, hrun, fuel', State.expireCues, hone]
  dsimp only
  rw [happly]
  refine hend.trans ?_
  rw [State.expireCues_none _ _ hlast.find_none, hlast.kept_all]
  exact State.afterLoss_left _ _ _ _ _ _

end Sys2Proof.Machine
end

section
/-! The start of a frame at a tracker in a running state: the advance, the expiry test and the samples, in each order of
the blocks (R103, R104, R110, R118, R120; log entry 10). -/

namespace Sys2Proof.Machine

/-! ### The tracker's part (R118, R120) -/

/-- A frame start that changes no state of the tracker raises no report (R118, R132). -/
theorem Tracker.frameStart_reports {now : Frame} {t : Tracker} (h : (t.frameStart now).changes = []) :
    (t.frameStart now).reports = [] := by
  unfold Tracker.frameStart at h ⊢
  split at h
  next ha =>
    rw [if_pos ha]
    cases hl : t.landing (t.position + (t.advanceUnits - t.lag)) with
    | free p => simp [hl, Tracker.rangeReports]
    | wait p => simp [hl, Landing.changes] at h
    | saturated => simp [hl, Landing.changes] at h
  next ha =>
    rw [if_neg ha]
    rfl

theorem Tracker.frameStart_advancing {t : Tracker} (now : Frame) (h : t.state.advancing = true) :
    t.frameStart now =
      { tracker := ({ t with remainder := t.nextRemainder, lag := t.lag - t.advanceUnits } : Tracker).land now
          (t.landing (t.position + (t.advanceUnits - t.lag))),
        reports := t.rangeReports (t.landing (t.position + (t.advanceUnits - t.lag))),
        changes := (t.landing (t.position + (t.advanceUnits - t.lag))).changes } :=
  if_pos h

/-- A landing moves the position and writes the trail entry (R120). -/
theorem Tracker.land_writes (now : Frame) (t : Tracker) (l : Landing) :
    ∃ p, t.land now l = { t with position := p, trail := t.trail.set (now.toNat % 512) (p / 65536) } := by
  cases l <;> exact ⟨_, rfl⟩

theorem Tracker.land_state (now : Frame) (t : Tracker) (l : Landing) (new : TrackerState)
    (back : Option TrackerState) :
    ({ t with state := new, returnState := back } : Tracker).land now l =
      { t.land now l with state := new, returnState := back } := by
  cases l <;> rfl

/-- What a frame start writes of the tracker (R117, R118, R120). -/
theorem Tracker.frameStart_writes (now : Frame) (t : Tracker) :
    ∃ p r l, (t.frameStart now).tracker = { t with
      position := p, remainder := r, lag := l, trail := t.trail.set (now.toNat % 512) (p / 65536) } := by
  by_cases ha : t.state.advancing = true
  · rw [Tracker.frameStart_advancing now ha]
    obtain ⟨p, hp⟩ := Tracker.land_writes now
      { t with remainder := t.nextRemainder, lag := t.lag - t.advanceUnits }
      (t.landing (t.position + (t.advanceUnits - t.lag)))
    exact ⟨p, _, _, hp⟩
  · refine ⟨t.position, t.remainder, t.lag, ?_⟩
    unfold Tracker.frameStart
    rw [if_neg ha]
    rfl

/-- The advance does not go by which of the advancing states the tracker is in (R118). -/
theorem Tracker.frameStart_state {t : Tracker} {new : TrackerState} (now : Frame) (back : Option TrackerState)
    (h : t.state.advancing = true) (hn : new.advancing = true) :
    ({ t with state := new, returnState := back } : Tracker).frameStart now =
      { t.frameStart now with
        tracker := { (t.frameStart now).tracker with state := new, returnState := back } } := by
  rw [Tracker.frameStart_advancing now hn, Tracker.frameStart_advancing now h]
  have land := Tracker.land_state now { t with remainder := t.nextRemainder, lag := t.lag - t.advanceUnits }
    (t.landing (t.position + (t.advanceUnits - t.lag))) new back
  exact congrArg (fun u => TrackerResult.mk u _ _) land

/-- The trail entry that the expiry test reads is not the one that the frame writes (R103, R120). -/
theorem Tracker.trailAt_earlier {t u : Tracker} {now : Frame} {n x : Nat}
    (h : u.trail = t.trail.set (now.toNat % 512) x) (h1 : 3 ≤ n) (h2 : n ≤ 288) :
    u.trailAt (now - BitVec.ofNat 32 n) = t.trailAt (now - BitVec.ofNat 32 n) := by
  have apart : now.toNat % 512 ≠ (now - BitVec.ofNat 32 n).toNat % 512 := by
    rw [BitVec.toNat_sub, BitVec.toNat_ofNat]
    omega
  unfold Tracker.trailAt
  rw [h]
  simp only [List.getD_eq_getElem?_getD]
  exact congrArg (fun o => Option.getD o 0) (List.getElem?_set_ne apart)

/-- A frame start without a change of state is the tracker's alone (R118). -/
theorem State.trackerFrame_free {s : State} (h : (s.tracker.frameStart s.link.frame).changes = []) :
    s.trackerFrame = { s with tracker := (s.tracker.frameStart s.link.frame).tracker } := by
  unfold State.trackerFrame State.applyTracker
  rw [h, Tracker.frameStart_reports h]
  rfl

/-! ### The run controller's part -/

/-- The samples of the next frame start bring nothing at the run controller (R141, R144 to R148). -/
def RunControl.Quiet (w : Bool) (r : RunControl) : Prop :=
  r.cancelHeld = false ∧ r.announced ≠ .winding ∧ (r.wind = .confirmed → w = true ∨ r.windLast ≠ some false)
    ∧ r.limitRunning = false ∧ r.holdRunning = false

/-- The samples are taken, and that is all (R141, R145). -/
theorem State.runFrame_quiet {s : State} {w : Bool} (h : s.run.Quiet w) :
    s.runFrame false w = { s with run := s.run.sampled false w } := by
  obtain ⟨hc, ha, hw, hl, hh⟩ := h
  have stays := RunControl.sampled_stays (c := false) hw
  rw [State.runFrame_alone (RunControl.sample_still w (fun _ => Or.inl rfl) (by simp [hc]))
    (fun _ => by simp [RunControl.readyDue, ha]), RunControl.frameStep_quiet _ stays ha hl hh rfl]

/-! ### The matcher's part (R103, R104, R110) -/

/-- The wait timer's step leaves all but the timer and its expiry (R110). -/
theorem Matcher.tick_keeps (waitLimit : Nat) (m : Matcher) :
    (m.tick waitLimit).cues = m.cues ∧ (m.tick waitLimit).announced = m.announced
      ∧ (m.tick waitLimit).miss = m.miss ∧ (m.tick waitLimit).lag = m.lag := by
  unfold Matcher.tick
  split
  · split <;> exact ⟨rfl, rfl, rfl, rfl⟩
  · exact ⟨rfl, rfl, rfl, rfl⟩

/-- The wait timer does not run (R110). -/
theorem Matcher.tick_still (waitLimit : Nat) {m : Matcher} (h : m.announced ≠ .waiting) : m.tick waitLimit = m :=
  if_neg (fun hw => h hw.1)

/-- What the expiry test of this frame start goes by, for an expiry lag of n (R102, R103). -/
structure State.Tests (i : Installed) (n trail : Nat) (s : State) : Prop where
  installed : s.loader.installed = some i
  running   : s.matcher.announced.running = true
  lag       : s.matcher.lag = some n
  least     : 3 ≤ n
  most      : n ≤ 288
  trailAt   : s.tracker.trailAt (s.link.frame - BitVec.ofNat 32 n) = trail

section
variable {i : Installed} {n trail : Nat} {s : State}

/-- The tracker's advance leaves the expiry test as it is. -/
theorem State.Tests.advanced (h : s.Tests i n trail) :
    State.Tests i n trail { s with tracker := (s.tracker.frameStart s.link.frame).tracker } := by
  obtain ⟨p, r, l, ht⟩ := s.tracker.frameStart_writes s.link.frame
  refine ⟨h.installed, h.running, h.lag, h.least, h.most, ?_⟩
  rw [ht]
  exact (Tracker.trailAt_earlier rfl h.least h.most).trans h.trailAt

/-- The run controller's samples leave the expiry test as it is. -/
theorem State.Tests.sampled (r : RunControl) (h : s.Tests i n trail) : State.Tests i n trail { s with run := r } :=
  ⟨h.installed, h.running, h.lag, h.least, h.most, h.trailAt⟩

theorem State.Tests.matcherFrame (h : s.Tests i n trail) : s.matcherFrame =
    State.expireCues i.lossLimit trail s.matcher.cues.length { s with matcher := s.matcher.tick i.waitLimit } := by
  obtain ⟨hcues, hann, -, hlag⟩ := s.matcher.tick_keeps i.waitLimit
  have trails : State.expiryTrail { s with matcher := s.matcher.tick i.waitLimit } = trail := by
    unfold State.expiryTrail
    rw [hlag, h.lag]
    exact h.trailAt
  unfold State.matcherFrame
  rw [h.installed]
  dsimp only
  rw [hann, if_pos h.running, trails, hcues]

/-- No cue is missed (R103, R110). -/
theorem State.Tests.unmissed (h : s.Tests i n trail) (hq : ∀ e ∈ s.matcher.cues, trail ≤ e.stamp + e.w) :
    s.matcherFrame = { s with matcher := s.matcher.tick i.waitLimit } := by
  obtain ⟨hcues, -, -, -⟩ := s.matcher.tick_keeps i.waitLimit
  have none' : (s.matcher.tick i.waitLimit).cues.find? (CueEntry.missedAt trail) = none := by
    rw [hcues]
    exact List.find?_eq_none.2 fun e he => by simpa [CueEntry.missedAt] using hq e he
  rw [h.matcherFrame, State.expireCues_none i.lossLimit _ none']
end

/-- The cues that the expiry test finds missed, with the wait stamp of those that it keeps at the tracker. -/
structure State.Expires (i : Installed) (n trail : Nat) (missed kept : List CueEntry) (s : State) : Prop
    extends s.Tests i n trail where
  misses : Misses trail missed kept s.matcher.cues
  stamp  : s.matcher.waitStamp = s.tracker.waitStamp

section
variable {i : Installed} {n trail : Nat} {s : State} {kept : List CueEntry}

theorem State.Expires.advanced {missed : List CueEntry} (h : s.Expires i n trail missed kept) :
    State.Expires i n trail missed kept { s with tracker := (s.tracker.frameStart s.link.frame).tracker } := by
  refine ⟨h.toTests.advanced, h.misses, h.stamp.trans ?_⟩
  obtain ⟨p, r, l, ht⟩ := s.tracker.frameStart_writes s.link.frame
  rw [ht]

theorem State.Expires.sampled {missed : List CueEntry} (r : RunControl) (h : s.Expires i n trail missed kept) :
    State.Expires i n trail missed kept { s with run := r } :=
  ⟨h.toTests.sampled r, h.misses, h.stamp⟩

/-- The misses without a Loss, behind the wait timer (R103, R104, R110). -/
theorem State.Expires.counted {missed : List CueEntry} (h : s.Expires i n trail missed kept)
    (hl : s.matcher.announced = .following → s.matcher.miss + missed.length < i.lossLimit) :
    s.matcherFrame = State.afterMisses missed kept { s with matcher := s.matcher.tick i.waitLimit } := by
  obtain ⟨hcues, hann, hmiss, -⟩ := s.matcher.tick_keeps i.waitLimit
  have all := State.expireCues_counted (s := { s with matcher := s.matcher.tick i.waitLimit }) (trail := trail)
    (missed := missed) (kept := kept) (lossLimit := i.lossLimit) h.installed (by rw [hann]; exact h.running)
    (by rw [hcues]; exact h.misses) ((congrArg leastWait hcues).trans h.stamp) (by rw [hann, hmiss]; exact hl)
  rw [h.toTests.matcherFrame, ← all, hcues]

/-- The misses among which one brings Loss (R104, R123). -/
theorem State.Expires.lost {before after : List CueEntry} {e : CueEntry}
    (h : s.Expires i n trail (before ++ e :: after) kept) (ha : s.matcher.announced = .following)
    (ht : s.tracker.state = .following) (hl : s.matcher.miss + before.length + 1 = i.lossLimit) :
    s.matcherFrame = s.withLoss before e after kept := by
  rw [h.toTests.matcherFrame, Matcher.tick_still _ (by simp [ha])]
  exact State.expireCues_loss h.installed ha ht h.misses h.stamp hl
end

/-! ### The three blocks, in each order -/

/-- The state in which the matcher takes the start of the frame, by the order of tracker and matcher (log entry 10). -/
def State.atExpiry (o : FrameOrder) (s : State) : State :=
  if trackerFirst o then { s with tracker := (s.tracker.frameStart s.link.frame).tracker } else s

/-- A part f of the matcher in a frame start that leaves the tracker and the run controller alone. -/
structure MatcherPart (f : State → State) : Prop where
  tracker : ∀ x, (f x).tracker = x.tracker
  run     : ∀ x, (f x).run = x.run
  link    : ∀ x, (f x).link = x.link
  loader  : ∀ x, (f x).loader = x.loader
  sampled : ∀ x q, f { x with run := q } = { f x with run := q }

/-- With such a part, the order of the blocks shows in the position that the matcher finds, and nowhere else (log entry
10). -/
theorem State.frameBlocks_apart {s : State} {c w : Bool} {r : RunControl} {f : State → State} (o : FrameOrder)
    (hf : MatcherPart f) (hfree : (s.tracker.frameStart s.link.frame).changes = [])
    (hrun : ∀ x : State, x.run = s.run → x.loader = s.loader → x.runFrame c w = { x with run := r })
    (hmatcher : ∀ t q, t = s.tracker ∨ t = (s.tracker.frameStart s.link.frame).tracker →
      State.matcherFrame { s with tracker := t, run := q } = f { s with tracker := t, run := q }) :
    s.frameBlocks c w o =
      { f (s.atExpiry o) with tracker := (s.tracker.frameStart s.link.frame).tracker, run := r } := by
  have advances : ∀ u : State, u.tracker = s.tracker → u.link = s.link →
      u.trackerFrame = { u with tracker := (s.tracker.frameStart s.link.frame).tracker } := by
    intro u ht hl
    rw [State.trackerFrame_free (by rw [ht, hl]; exact hfree), ht, hl]
  have eta : ({ f { s with tracker := (s.tracker.frameStart s.link.frame).tracker } with
        tracker := (s.tracker.frameStart s.link.frame).tracker, run := r } : State) =
      { f { s with tracker := (s.tracker.frameStart s.link.frame).tracker } with run := r } := by
    have kept := hf.tracker { s with tracker := (s.tracker.frameStart s.link.frame).tracker }
    exact congrArg (fun t => ({ f { s with tracker := (s.tracker.frameStart s.link.frame).tracker } with
      tracker := t, run := r } : State)) kept.symm
  have before : s.matcherFrame = f s := hmatcher s.tracker s.run (Or.inl rfl)
  have behind : State.matcherFrame { s with tracker := (s.tracker.frameStart s.link.frame).tracker } =
      f { s with tracker := (s.tracker.frameStart s.link.frame).tracker } := hmatcher _ s.run (Or.inr rfl)
  cases o <;> simp only [State.frameBlocks]
  · rw [advances s rfl rfl, behind, hrun _ (by exact hf.run _) (by exact hf.loader _)]
    exact eta.symm
  · rw [advances s rfl rfl, hrun _ (by rfl) (by rfl), hmatcher _ _ (Or.inr rfl)]
    exact (hf.sampled _ _).trans eta.symm
  · rw [before, advances _ (by exact hf.tracker _) (by exact hf.link _),
      hrun _ (by exact hf.run _) (by exact hf.loader _)]
    rfl
  · rw [before, hrun _ (by exact hf.run _) (by exact hf.loader _),
      advances _ (by exact hf.tracker _) (by exact hf.link _)]
    rfl
  · rw [hrun s rfl rfl, advances _ (by rfl) (by rfl), hmatcher _ _ (Or.inr rfl)]
    exact (hf.sampled _ _).trans eta.symm
  · have sampled : State.matcherFrame { s with run := r } = f { s with run := r } := hmatcher _ _ (Or.inl rfl)
    rw [hrun s rfl rfl, sampled, hf.sampled, advances _ (by exact hf.tracker _) (by exact hf.link _)]
    rfl

section
variable {s : State} {i : Installed} {n trail : Nat} {c w : Bool} {r : RunControl} {kept : List CueEntry}
  (o : FrameOrder) (hfree : (s.tracker.frameStart s.link.frame).changes = [])
include hfree

section
variable (hrun : ∀ x : State, x.run = s.run → x.loader = s.loader → x.runFrame c w = { x with run := r })
include hrun

theorem State.frameBlocks_counted {missed : List CueEntry} (h : s.Expires i n trail missed kept)
    (hl : s.matcher.announced = .following → s.matcher.miss + missed.length < i.lossLimit) :
    s.frameBlocks c w o =
      { State.afterMisses missed kept { s.atExpiry o with matcher := s.matcher.tick i.waitLimit } with
        tracker := (s.tracker.frameStart s.link.frame).tracker, run := r } := by
  refine State.frameBlocks_apart (f := fun x => State.afterMisses missed kept
    { x with matcher := s.matcher.tick i.waitLimit }) o
    ⟨fun _ => rfl, fun _ => rfl, fun _ => rfl, fun _ => rfl, fun _ _ => rfl⟩ hfree hrun ?_
  rintro t q (rfl | rfl)
  · exact (h.sampled q).counted hl
  · exact (h.advanced.sampled q).counted hl

/-- With no cue missed, the wait timer's step is the matcher's whole part. -/
theorem State.frameBlocks_unmissed (h : s.Tests i n trail) (hq : ∀ e ∈ s.matcher.cues, trail ≤ e.stamp + e.w) :
    s.frameBlocks c w o =
      { s with
        matcher := s.matcher.tick i.waitLimit,
        tracker := (s.tracker.frameStart s.link.frame).tracker, run := r } := by
  refine (State.frameBlocks_apart (f := fun x => { x with matcher := s.matcher.tick i.waitLimit }) o
    ⟨fun _ => rfl, fun _ => rfl, fun _ => rfl, fun _ => rfl, fun _ _ => rfl⟩ hfree hrun ?_).trans ?_
  · rintro t q (rfl | rfl)
    · exact (h.sampled q).unmissed hq
    · exact (h.advanced.sampled q).unmissed hq
  · cases o <;> rfl
end

theorem State.frameBlocks_lost (hq : s.run.Quiet w) {before after : List CueEntry} {e : CueEntry}
    (h : s.Expires i n trail (before ++ e :: after) kept) (ha : s.matcher.announced = .following)
    (ht : s.tracker.state = .following) (hl : s.matcher.miss + before.length + 1 = i.lossLimit) :
    s.frameBlocks false w o =
      { (s.atExpiry o).withLoss before e after kept with
        tracker := { (s.tracker.frameStart s.link.frame).tracker with state := .coasting, returnState := none },
        run := { s.run.sampled false w with announced := .coasting } } := by
  obtain ⟨hc, -, hw, hlim, hhold⟩ := id hq
  have still : ∀ u : State, u.run = { s.run with announced := .coasting } →
      u.runFrame false w = { u with run := { s.run.sampled false w with announced := .coasting } } := by
    intro u hu
    rw [State.runFrame_quiet (by rw [hu]; exact ⟨hc, nofun, hw, hlim, hhold⟩), hu]
    rfl
  have coasts : ∀ u : State, u.tracker = { s.tracker with state := .coasting, returnState := none } →
      u.link = s.link → u.trackerFrame = { u with tracker := { (s.tracker.frameStart s.link.frame).tracker with
        state := .coasting, returnState := none } } := by
    intro u hu hlink
    have advance := Tracker.frameStart_state (t := s.tracker) (new := .coasting) s.link.frame none (by rw [ht]; rfl) rfl
    rw [State.trackerFrame_free (by rw [hu, hlink, advance]; exact hfree), hu, hlink, advance]
  have advanced : (s.tracker.frameStart s.link.frame).tracker.state = .following := by
    obtain ⟨p, r, l, hs⟩ := s.tracker.frameStart_writes s.link.frame
    rw [hs]
    exact ht
  cases o <;> simp only [State.frameBlocks]
  · rw [State.trackerFrame_free hfree, h.advanced.lost ha advanced hl, still _ (by rfl)]
    rfl
  · rw [State.trackerFrame_free hfree, State.runFrame_quiet (by exact hq), (h.advanced.sampled _).lost ha advanced hl]
    rfl
  · rw [h.lost ha ht hl, coasts _ (by rfl) (by rfl), still _ (by rfl)]
    rfl
  · rw [h.lost ha ht hl, still _ (by rfl), coasts _ (by rfl) (by rfl)]
    rfl
  · rw [State.runFrame_quiet hq, State.trackerFrame_free (by exact hfree),
      (h.sampled (s.run.sampled false w)).advanced.lost ha advanced hl]
    rfl
  · rw [State.runFrame_quiet hq, (h.sampled (s.run.sampled false w)).lost ha ht hl, coasts _ (by rfl) (by rfl)]
    rfl
end

end Sys2Proof.Machine
end

section
/-! The FRAME_START rows at a tracker in a running state (R102 to R104, R110, R118, R148). -/

namespace Sys2Proof.Machine

/-- Tracker and matcher agree on a running state, and the expiry lag lies within the trail (R102, R120). -/
theorem State.tests_nextFrame {s : State} {i : Installed} {n : Nat} (hi : s.loader.installed = some i)
    (hr : s.matcher.announced.running = true) (hlag : s.matcher.lag = some n) (h3 : 3 ≤ n) (h288 : n ≤ 288) :
    s.nextFrame.Tests i n (s.nextExpiryTrail n) :=
  ⟨hi, hr, hlag, h3, h288, rfl⟩

/-! ### The drop in a running state (R148) -/

theorem frameStart_drop {s : State} {i : Installed} {n : Nat} (o : FrameOrder) (hdue : s.nothingDue)
    (hc : s.run.cancelHeld = false) (hwind : s.run.wind = .confirmed) (hlast : s.run.windLast = some false)
    (ht : s.nextFrame.Tests i n (s.nextExpiryTrail n))
    (hfree : (s.tracker.frameStart (s.link.frame + 1)).changes = [])
    (hcues : ∀ e ∈ s.matcher.cues, s.nextExpiryTrail n ≤ e.stamp + e.w) :
    ∃ t, exec (.frameStart false false o) s = .next t
      ∧ t.run = { s.run with
          cancelPrev := some false, windPrev := some false, windLast := some false, stage := .drop }
      ∧ t.tracker = (s.tracker.frameStart (s.link.frame + 1)).tracker
      ∧ t.raised = s.raised ∧ t.chest = s.chest ∧ t.mem = s.mem := by
  obtain ⟨-, -, -, -, -, hwait⟩ := id hdue
  have drops := (RunControl.sampled_drops false false s.run).2 ⟨hwind, hlast, rfl⟩
  have sample := RunControl.sample_still (r := s.run) (c := false) false (fun _ => Or.inl rfl) (by simp [hc])
  have dropped : ∀ x : State, x.run = s.run → x.loader = s.loader →
      x.runFrame false false = { x with run := { s.run.sampled false false with stage := .drop } } := by
    intro x hx _
    rw [State.runFrame_alone (by rw [hx]; exact sample) (by rw [hx]; simp [drops]), hx,
      RunControl.frameStep_drop _ drops]
  obtain ⟨t, hexec, -, ⟨⟨_, _, _, rfl⟩, -⟩, -⟩ := pumped (exec_frameStart_quiet false false o hdue)
    (State.frameBlocks_unmissed o hfree dropped ht hcues) hwait
  refine ⟨_, hexec, ?_, rfl, rfl, rfl, rfl⟩
  show ({ s.run.sampled false false with stage := .drop } : RunControl) = _
  rw [RunControl.sampled, hlast]

/-! ### The expiry of cues (R102 to R104, R110) -/

/-- The tables of the expiry test, by the cues of the list. -/
theorem State.expires_nextFrame {s : State} {i : Installed} {n : Nat} {missed kept : List CueEntry}
    (ht : s.nextFrame.Tests i n (s.nextExpiryTrail n)) (hd : s.slotsDistinct = true)
    (hkept : kept = s.matcher.cues.filter (fun e => decide (s.nextExpiryTrail n ≤ e.stamp + e.w)))
    (hmissed : missed = s.matcher.cues.filter (fun e => decide (e.stamp + e.w < s.nextExpiryTrail n)))
    (hleast : leastWait kept = s.matcher.waitStamp) (hw : s.matcher.waitStamp = s.tracker.waitStamp) :
    s.nextFrame.Expires i n (s.nextExpiryTrail n) missed kept := by
  have kept' : s.matcher.cues.filter (fun e => !e.missedAt (s.nextExpiryTrail n)) = kept := by
    rw [hkept]
    refine congrArg (fun p => s.matcher.cues.filter p) (funext fun e => ?_)
    rw [CueEntry.missedAt, ← decide_not]
    exact decide_eq_decide.2 Nat.not_lt
  simp only [State.slotsDistinct, Bool.and_eq_true, decide_eq_true_iff] at hd
  obtain ⟨-, distinct⟩ := hd
  exact ⟨ht, ⟨hmissed.symm, kept', distinct, (congrArg leastWait kept').trans hleast⟩, hw⟩

/-- The matcher behind the misses without a Loss: the counts by the tracker state, and the wait timer (R104, R110). -/
theorem Matcher.frameMisses {m : Matcher} {trail waitLimit : Nat} {missed kept : List CueEntry}
    {st : TrackerState} (ha : m.announced = st)
    (hq : Misses trail missed kept m.cues)
    (hst : st = .leading ∨ st = .coasting ∨ st = .following ∨ st = .waiting ∧ m.timerStopped = false) :
    ({ (m.tick waitLimit).counts missed.length with cues := kept } : Matcher) =
      if st = .waiting then
        if waitLimit ≠ 0 ∧ waitLimit ≤ m.timer + 1 then { m with cues := kept, expiryDue := true }
        else { m with cues := kept, timer := min 65535 (m.timer + 1) }
      else if st = .following then { m with cues := kept, miss := m.miss + missed.length }
      else if missed = [] then m
      else { m with cues := kept, capture := 0, miss := 0 } := by
  subst ha
  have clears : m.announced = .leading ∨ m.announced = .coasting →
      ({ m.counts missed.length with cues := kept } : Matcher) =
        if missed = [] then m else { m with cues := kept, capture := 0, miss := 0 } := by
    intro ha
    by_cases hm : missed = []
    · subst hm
      rw [if_pos rfl, List.length_nil, Matcher.counts_zero, ← hq.kept_all]
    · rw [if_neg hm]
      have some' : missed.length ≠ 0 := mt List.length_eq_zero_iff.1 hm
      rcases ha with ha | ha <;> simp [Matcher.counts, ha, some']
  rcases hst with ha | ha | ha | ⟨ha, hs⟩
  · rw [Matcher.tick_still _ (by simp [ha]), clears (Or.inl ha)]
    simp [ha]
  · rw [Matcher.tick_still _ (by simp [ha]), clears (Or.inr ha)]
    simp [ha]
  · rw [Matcher.tick_still _ (by simp [ha])]
    simp [Matcher.counts, ha]
  · rw [Matcher.tick, if_pos ⟨ha, by simp [hs]⟩, if_pos ha]
    split <;> simp [Matcher.counts, ha]

theorem State.atExpiry_eq (o : FrameOrder) (s : State) : s.atExpiry o = { s with
    tracker := if trackerFirst o then (s.tracker.frameStart s.link.frame).tracker else s.tracker } := by
  unfold State.atExpiry
  split <;> rfl

/-- The position that the matcher finds, by the order of tracker and matcher (log entry 10). -/
theorem State.nextFrame_integer (o : FrameOrder) (s : State) : (s.nextFrame.atExpiry o).tracker.integer =
    (if trackerFirst o then (s.tracker.frameStart (s.link.frame + 1)).tracker.position
      else s.tracker.position) / 65536 := by
  unfold State.atExpiry
  split <;> rfl

/-- The state behind the start of frame `now` whose misses bring no Loss, for the matcher m that they leave and the
tracker state st in which they are counted. -/
def State.missesTaken (w : Bool) (now : Frame) (pos : Nat) (missed : List CueEntry) (m : Matcher) (st : TrackerState)
    (s : State) : State :=
  { s with
    link := { s.link with frame := now },
    tracker := (s.tracker.frameStart now).tracker,
    matcher := m,
    admission := { s.admission with
      slots := missed.foldl (fun m e => Table.set .free m e.slot .free) s.admission.slots },
    run := s.run.sampled false w,
    report := { s.report with refreshDue := s.report.refreshDue || now.toNat % 20 == 0 },
    raised := s.raised ++ missed.map (fun e =>
      { block := .matcher,
        record := { report := missReport e false (st != .waiting), frame := now, position := pos } }) }

/-- The counts stand at 0 in COASTING (R104). -/
theorem Matcher.counts_cleared {m : Matcher} (n : Nat) (ha : m.announced = .coasting) (hc : m.capture = 0)
    (hm : m.miss = 0) : m.counts n = m := by
  cases m
  subst ha hc hm
  unfold Matcher.counts
  dsimp only
  split <;> rfl

/-- The misses with a Loss among them, as one change of the state (R104, R123). -/
theorem State.withLoss_eq {s : State} (before : List CueEntry) (e : CueEntry) (after kept : List CueEntry)
    (ha : s.matcher.announced = .following) :
    s.withLoss before e after kept =
      { s with
        tracker := { s.tracker with state := .coasting, returnState := none },
        matcher := { s.matcher with
          cues := kept, capture := 0, miss := 0, announced := .coasting, expiryDue := false },
        admission := { s.admission with
          slots := (before ++ e :: after).foldl (fun m e => Table.set .free m e.slot .free) s.admission.slots },
        fuser := { s.fuser with running := true },
        run := { s.run with announced := .coasting },
        loader := { s.loader with announced := .coasting },
        report := { s.report with refreshDue := true },
        raised := s.raised ++ before.map (fun x => s.reported .matcher (missReport x false true)) ++
          [s.reported .matcher (missReport e false true),
            s.reported .tracker (.state .following .coasting .loss)] ++
          after.map (fun x => s.reported .matcher (missReport x false true)) } := by
  have first : s.matcher.counts before.length = { s.matcher with miss := s.matcher.miss + before.length } := by
    simp [Matcher.counts, ha]
  have kept' := Matcher.counts_cleared after.length (m := ((s.afterMisses before kept).afterLoss e kept).matcher)
    rfl rfl rfl
  unfold State.withLoss
  rw [State.afterMisses, kept']
  simp [State.afterLoss, State.afterMisses, first, ha, State.reported, Tracker.integer]
  rfl

section
variable {s : State} {i : Installed} {n pos : Nat} {w : Bool} {now : Frame} {kept : List CueEntry} (o : FrameOrder)
  (hdue : s.nothingDue) (hrun : s.run.Quiet w)
  (hann : s.matcher.announced = s.tracker.state) (hnow : now = s.link.frame + 1)
  (hfree : (s.tracker.frameStart now).changes = [])
  (hpos : pos = (if trackerFirst o then (s.tracker.frameStart now).tracker.position
    else s.tracker.position) / 65536)
include hdue hrun hann hnow hfree hpos

/-- The misses of a frame start that bring no Loss. -/
theorem frameStart_misses {missed : List CueEntry}
    (he : s.nextFrame.Expires i n (s.nextExpiryTrail n) missed kept)
    (hstate : s.tracker.state = .leading ∨ s.tracker.state = .coasting
      ∨ s.tracker.state = .following ∧ s.matcher.miss + missed.length < i.lossLimit
      ∨ s.tracker.state = .waiting ∧ s.matcher.timerStopped = false) :
    ∃ t, exec (.frameStart false w o) s = .next t ∧
      sameButTraffic
        { s with
          link := { s.link with frame := now },
          tracker := (s.tracker.frameStart now).tracker,
          matcher :=
            if s.tracker.state = .waiting then
              if i.waitLimit ≠ 0 ∧ i.waitLimit ≤ s.matcher.timer + 1 then
                { s.matcher with cues := kept, expiryDue := true }
              else { s.matcher with cues := kept, timer := min 65535 (s.matcher.timer + 1) }
            else if s.tracker.state = .following then
              { s.matcher with cues := kept, miss := s.matcher.miss + missed.length }
            else if missed = [] then s.matcher
            else { s.matcher with cues := kept, capture := 0, miss := 0 },
          admission := { s.admission with
            slots := missed.foldl (fun m e => Table.set .free m e.slot .free) s.admission.slots },
          run := { s.run with
            cancelPrev := some false, windPrev := s.run.windLast, windLast := some w,
            stage := .done },
          report := { s.report with
            refreshDue := s.report.refreshDue || now.toNat % 20 == 0 },
          raised := s.raised ++ missed.map (fun e =>
            { block := .matcher,
              record :=
                { report := .miss e.slot e.stamp e.w e.wait e.anchor false
                    (s.tracker.state != .waiting),
                  frame := now, position := pos } }) } t := by
  obtain ⟨-, -, -, -, -, hwait⟩ := id hdue
  subst hnow hpos
  have quiet : ∀ x : State, x.run = s.run → x.loader = s.loader →
      x.runFrame false w = { x with run := s.run.sampled false w } := by
    intro x hx _
    rw [State.runFrame_quiet (by rw [hx]; exact hrun), hx]
  have few : s.matcher.announced = .following → s.matcher.miss + missed.length < i.lossLimit := by
    intro ha
    rw [hann] at ha
    rcases hstate with h | h | ⟨-, h⟩ | ⟨h, -⟩
    · exact absurd (ha.symm.trans h) nofun
    · exact absurd (ha.symm.trans h) nofun
    · exact h
    · exact absurd (ha.symm.trans h) nofun
  have matcher := Matcher.frameMisses (waitLimit := i.waitLimit) hann he.misses
    (hstate.imp_right (Or.imp_right (Or.imp_left And.left)))
  obtain ⟨-, tick, -, -⟩ := s.matcher.tick_keeps i.waitLimit
  have frame : s.nextFrame.frameBlocks false w o = s.missesTaken w (s.link.frame + 1)
      (s.nextFrame.atExpiry o).tracker.integer missed
      { (s.matcher.tick i.waitLimit).counts missed.length with cues := kept }
      (s.matcher.tick i.waitLimit).announced := by
    refine (State.frameBlocks_counted (s := s.nextFrame) o hfree quiet he few).trans ?_
    rw [State.atExpiry_eq, State.nextFrame_installed (s := s) he.installed]
    rfl
  rw [State.nextFrame_integer o, tick, hann, matcher] at frame
  exact pumped (exec_frameStart_quiet false w o hdue) frame (by exact hwait)

/-- The misses of a frame start among which one brings Loss. -/
theorem frameStart_loss {missed before after : List CueEntry} {e : CueEntry} {miss : CueEntry → Raised}
    (he : s.nextFrame.Expires i n (s.nextExpiryTrail n) missed kept) (ht : s.tracker.state = .following)
    (hm : missed = before ++ e :: after) (hl : s.matcher.miss + before.length + 1 = i.lossLimit)
    (hmiss : ∀ x, miss x =
      { block := .matcher,
        record := { report := .miss x.slot x.stamp x.w x.wait x.anchor false true,
                    frame := now, position := pos } }) :
    ∃ t, exec (.frameStart false w o) s = .next t
      ∧ t.tracker = { (s.tracker.frameStart now).tracker with
          state := .coasting, returnState := none }
      ∧ t.matcher = { s.matcher with
          cues := kept, capture := 0, miss := 0, announced := .coasting, expiryDue := false }
      ∧ t.admission.list = s.admission.list
      ∧ (∀ n, ¬ s.headsList n → t.slot n = Table.get .free
          (missed.foldl (fun m e => Table.set .free m e.slot .free) s.admission.slots) n)
      ∧ t.raised = s.raised ++ before.map miss ++ [miss e,
          { block := .tracker,
            record := { report := .state .following .coasting .loss, frame := now,
                        position := pos } }] ++ after.map miss
      ∧ t.release = s.release ∧ t.chest = s.chest ∧ t.mem = s.mem := by
  obtain ⟨-, -, -, -, -, hwait⟩ := id hdue
  obtain rfl : miss = fun x =>
      { block := .matcher,
        record := { report := missReport x false true, frame := now, position := pos } } := funext hmiss
  subst hnow hm
  have frame := State.frameBlocks_lost o (s := s.nextFrame) hfree hrun he (hann.trans ht) ht hl
  have place : (s.nextFrame.atExpiry o).tracker.integer = pos := hpos ▸ State.nextFrame_integer o s
  have lost := State.withLoss_eq before e after kept (s := s.nextFrame.atExpiry o) (by
    rw [State.atExpiry_eq]
    exact hann.trans ht)
  simp only [lost, State.reported, place] at frame
  rw [State.atExpiry_eq] at frame
  obtain ⟨t, hexec, -, ⟨⟨adm, port, space, rfl⟩, hlist, -, -, hslots⟩, -⟩ := pumped
    (exec_frameStart_quiet false w o hdue) frame (by exact hwait)
  exact ⟨_, hexec, rfl, rfl, hlist, fun n hn => hslots n hn, rfl, rfl, rfl, rfl⟩
end

end Sys2Proof.Machine
end

section
/-! The ready report at a frame start (R130, R145): the blocks behind it in the sender's order find the run begun, and
keep the wind as it is. -/

namespace Sys2Proof.Machine

/-! ### A run under way with its wind confirmed -/

/-- The tracker is in a running state or has halted, and a wait would return to a running state (R114, R125). -/
def Tracker.InRun (t : Tracker) : Prop :=
  (t.state.running = true ∨ t.state = .halted) ∧ ∀ b, t.returnState = some b → b.running = true

/-- The change of state keeps a tracker in the run: it goes on or halts, and waits from a running state only. -/
def Tracker.KeepsRun (t : Tracker) (new : TrackerState) : Prop :=
  (new.running = true ∨ new = .halted) ∧ (new = .waiting → t.state.running = true)

/-- An event that leaves the tracker in the run, with one change of state at most. -/
structure TrackerResult.InRun (r : TrackerResult) : Prop where
  tracker : r.tracker.InRun
  changes : r.changes = [] ∨ ∃ new cause, r.changes = [(new, cause)] ∧ r.tracker.KeepsRun new

theorem TrackerResult.InRun.plain {t : Tracker} (h : t.InRun) : (TrackerResult.plain t).InRun := ⟨h, Or.inl rfl⟩

theorem Tracker.InRun.enter {t : Tracker} {new : TrackerState} (h : t.InRun) (hn : t.KeepsRun new) :
    (t.enter new).InRun := by
  obtain ⟨hrun, hwait⟩ := hn
  cases new with
  | idle | winding | stopping => rcases hrun with hrun | hrun <;> cases hrun
  | leading | following | coasting => exact ⟨Or.inl rfl, nofun⟩
  | waiting => exact ⟨Or.inl rfl, fun b hb => Option.some.inj hb ▸ hwait rfl⟩
  | halted => exact ⟨Or.inr rfl, h.2⟩

theorem TrackerState.advancing_running {st : TrackerState} (h : st.advancing = true) : st.running = true := by
  cases st with
  | leading | following | coasting => rfl
  | idle | winding | waiting | halted | stopping => cases h

/-- A frame start keeps the run: it goes on, waits or halts (R118, R125, R131). -/
theorem Tracker.frameStart_inRun {t : Tracker} (now : Frame) (h : t.InRun) : (t.frameStart now).InRun := by
  obtain ⟨p, r, l, ht⟩ := t.frameStart_writes now
  refine ⟨by rw [ht]; exact h, ?_⟩
  by_cases ha : t.state.advancing = true
  · have running : (t.frameStart now).tracker.state.running = true := by
      rw [ht]
      exact TrackerState.advancing_running ha
    rw [show (t.frameStart now).changes = _ from congrArg TrackerResult.changes (Tracker.frameStart_advancing now ha)]
    cases t.landing (t.position + (t.advanceUnits - t.lag)) with
    | free p => exact Or.inl rfl
    | wait p => exact Or.inr ⟨_, _, rfl, Or.inl rfl, fun _ => running⟩
    | saturated => exact Or.inr ⟨_, _, rfl, Or.inr rfl, nofun⟩
  · refine Or.inl ?_
    unfold Tracker.frameStart
    rw [if_neg ha]
    rfl

/-- A wait stamp that the matcher announces keeps the run (R125, R127). -/
theorem Tracker.takeStamp_inRun {t : Tracker} (stamp : Option Nat) (h : t.InRun) : (t.takeStamp stamp).InRun := by
  have waits : t.state.running = true → (({ t with waitStamp := stamp } : Tracker).waitCheck = [] ∨ ∃ new cause,
      ({ t with waitStamp := stamp } : Tracker).waitCheck = [(new, cause)] ∧ t.KeepsRun new) := by
    intro hr
    unfold Tracker.waitCheck
    split
    · exact Or.inr ⟨_, _, rfl, Or.inl rfl, fun _ => hr⟩
    · exact Or.inl rfl
  unfold Tracker.takeStamp
  dsimp only
  split
  next hs => exact ⟨h, waits (by rw [hs]; rfl)⟩
  next hs => exact ⟨h, waits (by rw [hs]; rfl)⟩
  next hs => exact ⟨h, waits (by rw [hs]; rfl)⟩
  next hs =>
    split
    · exact .plain h
    · refine ⟨h, Or.inr ⟨_, _, rfl, Or.inl ?_, fun _ => by rw [hs]; rfl⟩⟩
      cases hb : t.returnState with
      | none => rfl
      | some b => exact h.2 b hb
  all_goals exact .plain h

/-- Loss keeps the run (R123). -/
theorem Tracker.takeLoss_inRun {t : Tracker} (h : t.InRun) : t.takeLoss.InRun := by
  unfold Tracker.takeLoss
  split
  · exact ⟨h, Or.inr ⟨_, _, rfl, Or.inl rfl, nofun⟩⟩
  · exact ⟨⟨h.1, fun b hb => Option.some.inj hb ▸ rfl⟩, Or.inl rfl⟩
  all_goals exact .plain h

/-- The wind stays CONFIRMED and reported, with the limit counter stopped, the run goes on or has halted, and the reports
`first` have been raised (R130, R145, R147). -/
structure State.UnderWind (limit : Nat) (first : List Raised) (s : State) : Prop where
  wind         : s.run.wind = .confirmed
  ready        : s.run.readyReported = true
  limitRunning : s.run.limitRunning = false
  limit        : s.run.limit = limit
  raised       : first <+: s.raised
  tracker      : s.tracker.InRun
  installed    : ∃ i, s.loader.installed = some i

section
variable {limit : Nat} {first : List Raised} {s : State}

/-- Reports raised, and a tracker, a matcher and slots that stay in the run. -/
theorem State.UnderWind.with (h : s.UnderWind limit first) {t : Tracker} (ht : t.InRun) (m : Matcher)
    (adm : Admission) (more : List Raised) : State.UnderWind limit first
      { s with tracker := t, matcher := m, admission := adm, raised := s.raised ++ more } :=
  ⟨h.wind, h.ready, h.limitRunning, h.limit, h.raised.trans ⟨_, rfl⟩, ht, h.installed⟩

theorem State.UnderWind.changeState {new : TrackerState} (cause : StateCause) (h : s.UnderWind limit first)
    (hn : s.tracker.KeepsRun new) : (s.changeState new cause).UnderWind limit first := by
  obtain ⟨i, hi⟩ := h.installed
  have entered := h.tracker.enter hn
  rcases hn.1 with hrun | rfl
  · have out : s.tracker.state ≠ .winding := by
      rcases h.tracker.1 with ht | ht <;> intro hw <;> rw [hw] at ht <;> cases ht
    rw [State.changeState_running hi hrun out]
    exact ⟨h.wind, h.ready, h.limitRunning, h.limit, h.raised.trans ⟨_, rfl⟩, entered, i, hi⟩
  · obtain ⟨port, halted⟩ := State.changeState_halted hi cause
    have wind : s.run.endWinding.wind = .confirmed := by simp [RunControl.endWinding, h.wind]
    rw [halted]
    exact ⟨wind, h.ready, rfl, h.limit, h.raised.trans ⟨_, rfl⟩, entered, i, hi⟩

theorem State.UnderWind.applyTracker {r : TrackerResult} (h : s.UnderWind limit first) (hr : r.InRun) :
    (s.applyTracker r).UnderWind limit first := by
  obtain ⟨i, hi⟩ := h.installed
  unfold State.applyTracker
  rw [State.raiseAll_installed (i := i) _ _ (by exact hi)]
  rcases hr.changes with hc | ⟨new, cause, hc, hn⟩
  · rw [hc]
    exact h.with hr.tracker s.matcher s.admission _
  · rw [hc]
    exact (h.with hr.tracker s.matcher s.admission _).changeState cause hn

theorem State.UnderWind.deliver {m : Option Message} (h : s.UnderWind limit first) (hm : m = none ∨ m = some .loss) :
    (s.deliver m).UnderWind limit first := by
  obtain ⟨i, hi⟩ := h.installed
  unfold State.deliver
  dsimp only
  split
  · exact h
  · have taken : ∀ u : State, u.UnderWind limit first →
        (u.applyTracker (u.tracker.deliver i u.link.frame s.matcher.waitStamp m)).UnderWind limit first := by
      intro u hu
      refine hu.applyTracker ?_
      rcases hm with rfl | rfl
      · exact Tracker.takeStamp_inRun _ hu.tracker
      · exact Tracker.takeLoss_inRun hu.tracker
    have stopped : State.UnderWind limit first { s with matcher := s.matcher.stopTimer } :=
      ⟨h.wind, h.ready, h.limitRunning, h.limit, h.raised, h.tracker, h.installed⟩
    rw [hi]
    dsimp only
    split
    · exact taken s h
    · exact taken _ stopped

theorem Matcher.expireOne_message {lossLimit trail : Nat} {m : Matcher} {r : MatcherResult}
    (h : m.expireOne lossLimit trail = some r) : r.message = none ∨ r.message = some .loss := by
  unfold Matcher.expireOne at h
  split at h
  · cases h
  · obtain rfl := Option.some.inj h
    dsimp only
    split
    · exact Or.inr rfl
    · exact Or.inl rfl

theorem State.UnderWind.expireCues (lossLimit trail n : Nat) (h : s.UnderWind limit first) :
    (State.expireCues lossLimit trail n s).UnderWind limit first := by
  induction n generalizing s with
  | zero => exact h
  | succ n ih =>
    obtain ⟨i, hi⟩ := h.installed
    unfold State.expireCues
    split
    · exact h
    next r hr =>
      refine ih ?_
      unfold State.applyMatcher
      rw [State.raiseAll_installed (i := i) _ _ (by exact hi), State.freeSlots_fold]
      exact (h.with h.tracker _ _ _).deliver (Matcher.expireOne_message hr)

theorem State.UnderWind.matcherFrame (h : s.UnderWind limit first) : s.matcherFrame.UnderWind limit first := by
  unfold State.matcherFrame
  split
  · exact h
  · dsimp only
    split
    · refine State.UnderWind.expireCues _ _ _ ?_
      exact ⟨h.wind, h.ready, h.limitRunning, h.limit, h.raised, h.tracker, h.installed⟩
    · exact ⟨h.wind, h.ready, h.limitRunning, h.limit, h.raised, h.tracker, h.installed⟩

theorem State.UnderWind.trackerFrame (h : s.UnderWind limit first) : s.trackerFrame.UnderWind limit first :=
  h.applyTracker (Tracker.frameStart_inRun _ h.tracker)

/-- The hold timer's step leaves the wind as it is (R144). -/
theorem State.UnderWind.runAfterLimit (h : s.UnderWind limit first) : s.runAfterLimit.UnderWind limit first := by
  obtain ⟨hlimit, hwind, -, -, hready, -, -⟩ := s.run.holdStep_keeps
  exact ⟨hwind.trans h.wind, hready.trans h.ready, hlimit.trans h.limitRunning,
    (RunControl.holdStep_limit _).trans h.limit, h.raised, h.tracker, h.installed⟩

/-- WINDING ends with no wait stamp below the position: the run begins, and waits at once on the wait stamp (R130). -/
theorem State.leaveWinding_fresh {i : Installed} (hi : s.loader.installed = some i) (ht : s.tracker.state = .winding)
    (hfresh : ∀ w, s.tracker.waitStamp = some w → s.tracker.position ≤ w * 65536) (hwind : s.run.wind = .confirmed)
    (hready : s.run.readyReported = true) (hlimit : s.run.limitRunning = false) :
    s.leaveWinding.UnderWind s.run.limit
      (s.raised ++ [s.reported .tracker (.state .winding .leading .windReady)]) := by
  have fresh : ¬ s.tracker.waitStampStale = true := by
    rw [Tracker.waitStampStale_iff]
    rintro ⟨w, hws, hlt⟩
    exact absurd (hfresh w hws) (Nat.not_le.2 hlt)
  have begun : (s.changeState .leading .windReady).UnderWind s.run.limit
      (s.raised ++ [s.reported .tracker (.state .winding .leading .windReady)]) := by
    rw [State.changeState_leading _ hi ht]
    exact ⟨hwind, hready, hlimit, rfl, ⟨_, rfl⟩, ⟨Or.inl rfl, nofun⟩, i, hi⟩
  rw [State.leaveWinding, if_pos ht, if_neg fresh, Tracker.leadChanges, State.changeAll]
  unfold Tracker.waitCheck
  split
  · show (State.changeState .waiting .waitReached _).UnderWind _ _
    refine begun.changeState _ ⟨Or.inl rfl, fun _ => ?_⟩
    rw [State.changeState_leading _ hi ht]
    rfl
  · exact begun
end

/-! ### The clearing of stale WAIT cues -/

/-- The tracker has asked for the clearing of stale WAIT cues and stays in WINDING, the reports `first` having been
raised (R130). -/
structure State.Asking (limit : Nat) (first : List Raised) (s : State) : Prop where
  wind         : s.run.wind = .confirmed
  ready        : s.run.readyReported = true
  limitRunning : s.run.limitRunning = false
  limit        : s.run.limit = limit
  raised       : first <+: s.raised
  state        : s.tracker.state = .winding
  awaiting     : s.tracker.awaitingClear = true
  answer       : s.matcher.clearAnswer = true
  still        : s.matcher.announced.running = false

section
variable {limit : Nat} {first : List Raised} {s : State}

theorem State.Asking.matcherFrame (h : s.Asking limit first) : s.matcherFrame.Asking limit first := by
  rw [State.matcherFrame_still h.still]
  exact h

theorem State.Asking.trackerFrame (h : s.Asking limit first) : s.trackerFrame.Asking limit first := by
  rw [State.trackerFrame_still (by rw [h.state]; rfl)]
  exact ⟨h.wind, h.ready, h.limitRunning, h.limit, h.raised, h.state, h.awaiting, h.answer, h.still⟩

theorem State.Asking.runAfterLimit (h : s.Asking limit first) : s.runAfterLimit.Asking limit first := by
  obtain ⟨hlimit, hwind, -, -, hready, -, -⟩ := s.run.holdStep_keeps
  exact ⟨hwind.trans h.wind, hready.trans h.ready, hlimit.trans h.limitRunning,
    (RunControl.holdStep_limit _).trans h.limit, h.raised, h.state, h.awaiting, h.answer, h.still⟩

theorem State.leaveWinding_stale {i : Installed} {w : Nat} (hi : s.loader.installed = some i)
    (ht : s.tracker.state = .winding) (hw : s.tracker.waitStamp = some w) (hstale : w * 65536 < s.tracker.position)
    (hm : s.matcher.announced.running = false) (hwind : s.run.wind = .confirmed)
    (hready : s.run.readyReported = true) (hlimit : s.run.limitRunning = false) :
    s.leaveWinding.Asking s.run.limit s.raised := by
  rw [State.leaveWinding, if_pos ht, if_pos (Tracker.waitStampStale_iff.2 ⟨w, hw, hstale⟩),
    State.askClear_installed hi rfl]
  exact ⟨hwind, hready, hlimit, rfl, ⟨_, rfl⟩, ht, rfl, rfl, hm⟩
end

/-! ### The ready report among the blocks -/

/-- The first frame start of a WINDING with a CONFIRMED wind reports it ready (R130, R145). -/
theorem State.runFrame_ready {s : State} {i : Installed} {c w : Bool} (hi : s.loader.installed = some i)
    (hsample : s.run.sample c w = s.run.sampled c w) (ha : s.run.announced = .winding)
    (hwind : s.run.wind = .confirmed) (hlow : w = true ∨ s.run.windLast ≠ some false)
    (hr : s.run.readyReported = false) : s.runFrame c w =
    (State.leaveWinding { s with
      run := (s.run.sampled c w).ready, raised := s.raised ++ [s.reported .run (.wind .ready)] }).runAfterLimit := by
  have stays : (s.run.sampled c w).drops = false := RunControl.sampled_stays (fun _ => hlow)
  have settled : (s.run.sampled c w).settleStep s.windSettings.1 = s.run.sampled c w :=
    RunControl.settleStep_confirmed hwind
  have rest : s.runFrame c w = State.runAfterSettle { s with run := s.run.sampled c w } := by
    unfold State.runFrame State.runAfterCancel State.runAfterDrop
    simp only [hsample, stays, show State.windSettings { s with run := s.run.sampled c w } = s.windSettings from rfl,
      settled, show (s.run.sampled c w).stage = .done from rfl, Bool.false_eq_true, reduceCtorEq, if_true, if_false]
  rw [rest, State.runAfterSettle_confirmed (by exact hwind) rfl, State.reportReady_due (i := i) (by exact hi)]
  · refine congrArg (fun r => State.runAfterLimit (State.leaveWinding { s with
      run := r, raised := s.raised ++ [s.reported .run (.wind .ready)] })) ?_
    simp [RunControl.ready, RunControl.reportReady, RunControl.sampled, hwind]
  · simp [RunControl.readyDue, RunControl.sampled, ha, hwind, hr]

/-- What holds behind the run controller's part, and behind the parts of tracker and matcher from there on, holds at the
end of the frame start; ahead of it a tracker and a matcher at rest do nothing but the trail entry. -/
theorem State.frameBlocks_behind {P : State → Prop} {s : State} {c w : Bool} (o : FrameOrder)
    (ha : s.tracker.state.advancing = false) (hm : s.matcher.announced.running = false)
    (htracker : ∀ x : State, P x → P x.trackerFrame) (hmatcher : ∀ x : State, P x → P x.matcherFrame)
    (hrun : P (s.runFrame c w))
    (hrecorded : P (State.runFrame c w { s with tracker := s.tracker.record s.link.frame })) :
    P (s.frameBlocks c w o) := by
  cases o with
  | tmr =>
    rw [State.frameBlocks, State.trackerFrame_still ha, State.matcherFrame_still (by exact hm)]
    exact hrecorded
  | trm =>
    rw [State.frameBlocks, State.trackerFrame_still ha]
    exact hmatcher _ hrecorded
  | mtr =>
    rw [State.frameBlocks, State.matcherFrame_still hm, State.trackerFrame_still ha]
    exact hrecorded
  | mrt =>
    rw [State.frameBlocks, State.matcherFrame_still hm]
    exact htracker _ hrun
  | rtm => exact hmatcher _ (htracker _ hrun)
  | rmt => exact htracker _ (hmatcher _ hrun)

section
variable {s : State} {i : Installed} {c w : Bool} (o : FrameOrder)
  (hi : s.loader.installed = some i) (hm : s.matcher.announced.running = false)
  (hsample : s.run.sample c w = s.run.sampled c w) (ha : s.run.announced = .winding)
  (ht : s.tracker.state = .winding) (hwind : s.run.wind = .confirmed) (hlow : w = true ∨ s.run.windLast ≠ some false)
  (hr : s.run.readyReported = false)
include hi hm hsample ha ht hwind hlow hr

/-- What the answer to the ready report establishes, and the blocks behind it keep, holds in each order of the blocks. -/
theorem frameStart_ready {P : State → Prop} (htracker : ∀ x : State, P x → P x.trackerFrame)
    (hmatcher : ∀ x : State, P x → P x.matcherFrame)
    (hended : ∀ u : State, u.run = (s.run.sampled c w).ready → u.loader = s.loader → u.matcher = s.matcher →
      u.tracker.state = .winding → u.tracker.waitStamp = s.tracker.waitStamp →
      u.tracker.position = s.tracker.position → u.link.frame = s.link.frame + 1 →
      u.raised = s.raised ++ [s.nextFrame.reported .run (.wind .ready)] → P u.leaveWinding.runAfterLimit) :
    P (s.nextFrame.frameBlocks c w o) := by
  refine State.frameBlocks_behind o (by exact ht ▸ rfl) hm htracker hmatcher ?_ ?_
  · rw [State.runFrame_ready (s := s.nextFrame) hi hsample ha hwind hlow hr]
    exact hended _ rfl rfl rfl ht rfl rfl rfl rfl
  · rw [State.runFrame_ready (s := { s.nextFrame with
      tracker := s.nextFrame.tracker.record s.nextFrame.link.frame }) hi hsample ha hwind hlow hr]
    exact hended _ rfl rfl rfl ht rfl rfl rfl rfl

/-- The ready report ends WINDING, or asks for the clearing of stale WAIT cues (R130, R145). -/
theorem frameStart_reportsReady (hdue : s.nothingDue) :
    ∃ t more, exec (.frameStart c w o) s = .next t
      ∧ t.run.wind = .confirmed ∧ t.run.readyReported = true ∧ t.run.limitRunning = false
      ∧ t.run.limit = (if s.run.limitRunning then min 65535 (s.run.limit + 1) else s.run.limit)
      ∧ t.raised = s.raised ++
          { block := .run,
            record := { report := .wind .ready, frame := s.link.frame + 1,
                        position := s.tracker.position / 65536 } } :: more
      ∧ ((∀ x, s.tracker.waitStamp = some x → s.tracker.position ≤ x * 65536) →
        more.head? = some
          { block := .tracker,
            record := { report := .state .winding .leading .windReady, frame := s.link.frame + 1,
                        position := s.tracker.position / 65536 } })
      ∧ (∀ x, s.tracker.waitStamp = some x → x * 65536 < s.tracker.position →
        t.tracker.state = .winding ∧ t.tracker.awaitingClear = true
          ∧ t.matcher.clearAnswer = true) := by
  obtain ⟨-, -, -, -, -, hwait⟩ := id hdue
  obtain ⟨t, hexec, -, ⟨⟨_, _, _, rfl⟩, -⟩, -⟩ := pumped (exec_frameStart_quiet c w o hdue) rfl
    ((State.frameBlocks_waiting c w o s.nextFrame).trans hwait)
  by_cases hstale : ∃ x, s.tracker.waitStamp = some x ∧ x * 65536 < s.tracker.position
  · obtain ⟨x, hx, hlt⟩ := hstale
    have asking := frameStart_ready o hi hm hsample ha ht hwind hlow hr
      (P := State.Asking (if s.run.limitRunning then min 65535 (s.run.limit + 1) else s.run.limit)
        (s.raised ++ [s.nextFrame.reported .run (.wind .ready)]))
      (fun _ h => h.trackerFrame) (fun _ h => h.matcherFrame) (by
        intro u hrun hl hma hst hws hpos _ hra
        have asks := State.leaveWinding_stale (s := u) (hl ▸ hi) hst (hws.trans hx) (hpos ▸ hlt) (hma ▸ hm)
          (by rw [hrun]; rfl) (by rw [hrun]; rfl) (by rw [hrun]; rfl)
        rw [hrun, hra] at asks
        exact asks.runAfterLimit)
    obtain ⟨more, hmore⟩ := asking.raised
    refine ⟨_, more, hexec, asking.wind, asking.ready, asking.limitRunning, asking.limit, ?_,
      fun hfresh => absurd (hfresh x hx) (Nat.not_le.2 hlt),
      fun _ _ _ => ⟨asking.state, asking.awaiting, asking.answer⟩⟩
    exact hmore.symm.trans (List.append_assoc _ _ _)
  · have fresh : ∀ x, s.tracker.waitStamp = some x → s.tracker.position ≤ x * 65536 :=
      fun x hx => Nat.not_lt.1 fun hlt => hstale ⟨x, hx, hlt⟩
    have under := frameStart_ready o hi hm hsample ha ht hwind hlow hr
      (P := State.UnderWind (if s.run.limitRunning then min 65535 (s.run.limit + 1) else s.run.limit)
        (s.raised ++ [s.nextFrame.reported .run (.wind .ready)]
          ++ [s.nextFrame.reported .tracker (.state .winding .leading .windReady)]))
      (fun _ h => h.trackerFrame) (fun _ h => h.matcherFrame) (by
        intro u hrun hl _ hst hws hpos hf hra
        have begins := State.leaveWinding_fresh (s := u) (hl ▸ hi) hst (by rw [hws, hpos]; exact fresh)
          (by rw [hrun]; rfl) (by rw [hrun]; rfl) (by rw [hrun]; rfl)
        have reported : u.reported .tracker (.state .winding .leading .windReady)
            = s.nextFrame.reported .tracker (.state .winding .leading .windReady) := by
          simp only [State.reported, Tracker.integer, hf, hpos]
          rfl
        rw [hrun, hra, reported] at begins
        exact begins.runAfterLimit)
    obtain ⟨more, hmore⟩ := under.raised
    refine ⟨_, _ :: more, hexec, under.wind, under.ready, under.limitRunning, under.limit, ?_, fun _ => rfl,
      fun x hx hlt => absurd ⟨x, hx, hlt⟩ hstale⟩
    refine hmore.symm.trans ?_
    rw [List.append_assoc, List.append_assoc]
    rfl
end

end Sys2Proof.Machine

open Sys2Proof Sys2Proof.Machine

/-- Settles O36: the tracker and the matcher at rest, the expiry test, and the wind and its timers. -/
theorem frameStartTaken : Obligations.FrameStartTaken := by
  intro c w o s
  have link := exec_frameStart_link c w o s
  refine ⟨fun hb => ?_, fun hb => ?_, ?_, ?_, ?_, ?_⟩
  · rwa [Link.nextFrame, if_pos hb] at link
  · rwa [Link.nextFrame, if_neg (by simp [hb])] at link
  · rintro hb hwait hstage hdue hwindow hsound ha hm hw hu hl hh hc rfl
    have shut : s.fuser.overdue s.link.frame = false := by simp [Fuser.overdue, hwindow]
    exact frameStart_idle w o ⟨hstage, hdue, shut, State.markDue_silent hsound, hb, hwait⟩ ha hm hw hu hl hh hc
  · rintro i n pos now kept missed rfl ⟨hdue, hquiet⟩ hi hlag h3 h288 hann hd rfl hfree hkept hmissed hleast
      hstamp hpos
    refine ⟨fun hstate => ?_, fun before after e miss ht hm hl hmiss => ?_⟩
    · have running : s.matcher.announced.running = true := by
        rw [hann]
        rcases hstate with h | h | ⟨h, -⟩ | ⟨h, -⟩ <;> rw [h] <;> rfl
      exact frameStart_misses o hdue hquiet hann rfl hfree hpos (State.expires_nextFrame
        (State.tests_nextFrame hi running hlag h3 h288) hd hkept hmissed hleast hstamp) hstate
    · have running : s.matcher.announced.running = true := by
        rw [hann, ht]
        rfl
      exact frameStart_loss o hdue hquiet hann rfl hfree hpos (State.expires_nextFrame
        (State.tests_nextFrame hi running hlag h3 h288) hd hkept hmissed hleast hstamp) ht hm hl hmiss
  · rintro i now sampled taken hdue hi rfl ha hm hc1 hc2 rfl htaken
    obtain rfl : taken = FrameTaken c w o s := funext fun r => htaken r
    have sample := RunControl.sample_still w hc1 hc2
    refine ⟨fun hw hl hlow => ?_, fun hann hw hl hhigh hset => ?_, fun hann hw hhigh hset => ?_,
      fun settled counted hs hc => ?_, fun hann ht hw hlow hr => ?_⟩
    · exact frameTaken_drop hdue hi ha hm sample hw hl hlow
    · refine frameTaken_confirm hdue hi ha hm sample (by simp [hw]) ?_ rfl
      rw [hset]
      exact RunControl.settleStep_atOnce hann hw ((RunControl.sampled_bothHigh _ _ _).2 ⟨hhigh, hl⟩)
    · exact frameTaken_confirm hdue hi ha hm sample (by simp [hw])
        (RunControl.settleStep_ends hann hw (congrArg some hhigh) hset) rfl
    · exact frameTaken_counters hdue hi ha hm sample hs hc
    · exact frameStart_reportsReady o hi hm sample hann ht hw hlow hr hdue
  · rintro i n now rfl rfl hdue hi rfl hc hw hl hr hann hlag h3 h288 hfree hcues
    exact frameStart_drop o hdue hc hw hl (State.tests_nextFrame hi (hann ▸ hr) hlag h3 h288) hfree hcues
end

section
/-! The fusion window: its span, the place of a contributor, and what an onset does to it (R86 to R90). -/

namespace Sys2Proof.Machine

/-- The frame after the closing frame is past the span, which does not reach round to the opening arrival (R88). -/
theorem Window.spans_next {w : Window} {span : Nat} (hs : span + 1 < 2 ^ 32)
    (h : w.closing = w.opening + BitVec.ofNat 32 span) : w.spans (w.closing + 1) = false := by
  refine Bool.eq_false_iff.2 fun hin => ?_
  obtain ⟨n, hn, he⟩ := (Window.spans_iff (by omega) h _).1 hin
  rw [h, BitVec.add_assoc, BitVec.add_right_inj] at he
  have steps : (span + 1) % 2 ^ 32 = n % 2 ^ 32 := by
    simpa [BitVec.toNat_add] using congrArg BitVec.toNat he
  omega

theorem Contributor.before_trans {opening : Frame} {b c d : Contributor} (hbc : b.before opening c = true)
    (hcd : c.before opening d = true) : b.before opening d = true := by
  rw [Contributor.before_iff] at hbc hcd ⊢
  rcases hbc with hbc | ⟨hbc, hp⟩
  · rcases hcd with hcd | ⟨hcd, -⟩
    · exact .inl (hbc.trans hcd)
    · exact .inl (hcd ▸ hbc)
  · rcases hcd with hcd | ⟨hcd, hq⟩
    · exact .inl (hbc ▸ hcd)
    · exact .inr ⟨hbc.trans hcd, hp.trans hq⟩

/-- What stands before the head of a list in order stands before all of it (R86). -/
theorem Contributor.before_all {opening : Frame} {c : Contributor} {l : List Contributor}
    (hl : l.Pairwise (fun d e => d.before opening e = true)) (hc : ∀ d, l.head? = some d → c.before opening d = true) :
    ∀ d ∈ l, c.before opening d = true := by
  cases hl with
  | nil => simp
  | @cons x l hx _ =>
    intro d hd
    rcases List.mem_cons.1 hd with rfl | hd
    · exact hc _ rfl
    · exact Contributor.before_trans (hc x rfl) (hx d hd)

/-- A pickup contributes once (R89). -/
theorem Window.join_again {w : Window} {c : Contributor} (h : ∃ d ∈ w.contributors, d.pickup = c.pickup) :
    w.join c = w := by
  refine if_pos ?_
  simpa using h

theorem Window.join_new {w : Window} {c : Contributor} (h : ∀ d ∈ w.contributors, d.pickup ≠ c.pickup) :
    w.join c = { w with
      contributors := contributorInsert w.opening c w.contributors, sum := w.sum + c.contribution } := by
  refine if_neg ?_
  simpa using h

section
variable {f : Fuser} {w : Window} {c : Contributor} (span threshold : Nat)

/-- Outside the running states an onset is discarded (R87). -/
theorem Fuser.takeOnset_stopped (h : f.running = false) : f.takeOnset span threshold c = (f, none) := by
  simp [Fuser.takeOnset, h]

theorem Fuser.takeOnset_opens (h : f.running = true) (hw : f.window = none) :
    f.takeOnset span threshold c = ({ f with window := some (Window.openedBy span c) }, none) := by
  simp [Fuser.takeOnset, h, hw]

theorem Fuser.takeOnset_joins (h : f.running = true) (hw : f.window = some w) (hs : w.spans c.arrival = true) :
    f.takeOnset span threshold c = ({ f with window := some (w.join c) }, none) := by
  simp [Fuser.takeOnset, h, hw, hs]

/-- An onset past the closing frame closes the window and opens the next (R90). -/
theorem Fuser.takeOnset_past (h : f.running = true) (hw : f.window = some w) (hs : w.spans c.arrival = false) :
    f.takeOnset span threshold c
      = ({ f with window := some (Window.openedBy span c) }, w.fused threshold) := by
  simp [Fuser.takeOnset, h, hw, hs]
end

end Sys2Proof.Machine

open Sys2Proof Sys2Proof.Machine

/-- Settles O40: the span by the frames counted from the opening arrival, and the onset by the flag, the window and
its span; a joining contributor takes its place by `contributorInsert_split`. -/
theorem onsetOpensOrJoinsWindow : Obligations.OnsetOpensOrJoinsWindow := by
  refine ⟨fun w span a hs hc => ?_, fun e o span threshold f => ?_⟩
  · have frames := Window.spans_iff (Nat.lt_of_succ_lt hs) hc
    exact ⟨frames a, (frames _).2 ⟨0, Nat.zero_le _, by simp⟩, (frames _).2 ⟨span, Nat.le_refl _, hc⟩,
      Window.spans_next hs hc⟩
  · refine ⟨fun hr => Fuser.takeOnset_stopped _ _ hr, fun hr hw => Fuser.takeOnset_opens _ _ hr hw,
      fun w hr hw hs hd => ?_, fun w hr hw hs hd => ?_, fun w hr hw hs => Fuser.takeOnset_past _ _ hr hw hs⟩
    · rw [Fuser.takeOnset_joins _ _ hr hw hs, Window.join_again hd, ← hw]
    · obtain ⟨ahead, behind, split, placed, hahead, hbehind⟩ :=
        contributorInsert_split w.opening (contributorOf e o) w.contributors hd
      have later (d : Contributor) (h : (contributorOf e o).before w.opening d = true) :
          (o.arrival - w.opening).toNat < (d.arrival - w.opening).toNat ∨ d.arrival = o.arrival ∧ o.pickup < d.pickup :=
        (Contributor.before_iff.1 h).imp_right (And.imp_left Eq.symm)
      refine ⟨ahead, behind, split, ?_, fun d h => Contributor.before_iff.1 (hahead d h),
        fun d h => later d (hbehind d h), fun sorted d h => ?_⟩
      · rw [Fuser.takeOnset_joins _ _ hr hw hs, Window.join_new hd, placed]
        rfl
      · have rest : behind.Pairwise (fun c d => c.before w.opening d = true) := by
          simp only [Contributor.before_iff]
          exact (List.pairwise_append.1 (split ▸ sorted)).2.1
        exact later d (Contributor.before_all rest hbehind d h)
end

section
/-! A fused onset at the cue matcher, each outcome as its result (R105 to R109). -/

namespace Sys2Proof.Machine

theorem TrackerState.advancing_iff {st : TrackerState} :
    st.advancing = true ↔ st = .leading ∨ st = .following ∨ st = .coasting := by
  cases st <;> simp [TrackerState.advancing]

/-- The window of a match, as R106 gives it. -/
theorem CueEntry.matchesAt_iff {p : Nat} {e : CueEntry} :
    e.matchesAt p = true ↔ p ≤ e.stamp + e.w ∧ e.stamp ≤ p + e.w := by
  simp [CueEntry.matchesAt]

theorem CueEntry.matchesAt_false {p : Nat} {e : CueEntry} (h : ¬ (p ≤ e.stamp + e.w ∧ e.stamp ≤ p + e.w)) :
    e.matchesAt p = false :=
  Bool.eq_false_iff.2 fun hm => h (CueEntry.matchesAt_iff.1 hm)

theorem cuesAfter_split (ahead rest : List CueEntry) (e : CueEntry) : cuesAfter ahead (ahead ++ e :: rest) = rest := by
  simp [cuesAfter]

section
variable {m : Matcher} (p : Nat) (o : FusedOnset)

/-- Outside the running states a fused onset is discarded (R105). -/
theorem Matcher.takeFused_discarded (h : m.announced.running = false) : m.takeFused p o = MatcherResult.plain m := by
  unfold Matcher.takeFused
  cases ha : m.announced with
  | idle | winding | halted | stopping => rfl
  | leading | following | coasting | waiting => simp [ha, TrackerState.running] at h

/-- In LEADING, FOLLOWING and COASTING a fused onset is matched by window (R105). -/
theorem Matcher.takeFused_advancing (h : m.announced.advancing = true) :
    m.takeFused p o = m.matchWindow (m.announced == .following) p o := by
  unfold Matcher.takeFused
  rcases TrackerState.advancing_iff.1 h with ha | ha | ha <;> rw [ha] <;> rfl

/-- No cue matches (R106). -/
theorem Matcher.matchWindow_stray (following : Bool) (h : ∀ x ∈ m.cues, ¬ (p ≤ x.stamp + x.w ∧ x.stamp ≤ p + x.w)) :
    m.matchWindow following p o =
      { matcher := m, reports := [.stray o.frame o.strength o.pickups p], freed := [], message := none } := by
  unfold Matcher.matchWindow
  rw [cueSplit_none fun x hx => CueEntry.matchesAt_false (h x hx)]

variable {ahead rest : List CueEntry} {e : CueEntry}

/-- The first cue that matches leaves, and those ahead of it as overtaken (R107, R108). -/
theorem Matcher.matchWindow_found {counted : Matcher} {message : Message} (following : Bool)
    (hq : m.cues = ahead ++ e :: rest) (hahead : ∀ x ∈ ahead, ¬ (p ≤ x.stamp + x.w ∧ x.stamp ≤ p + x.w))
    (he : p ≤ e.stamp + e.w ∧ e.stamp ≤ p + e.w)
    (hc : m.countMatch following ((e.stamp : Int) - p) e.anchor = (counted, message)) :
    m.matchWindow following p o =
      { matcher := { counted with cues := rest }, reports := matchReports ahead e ((e.stamp : Int) - p) o,
        freed := matchFreed ahead e, message := some message } := by
  unfold Matcher.matchWindow
  rw [hq, cueSplit_found (fun x hx => CueEntry.matchesAt_false (hahead x hx)) (CueEntry.matchesAt_iff.2 he)]
  simp only [hc, cuesAfter_split]

/-- In WAITING the first WAIT cue is matched with error 0, and ends the wait (R109). -/
theorem Matcher.takeFused_endsWait (ha : m.announced = .waiting) (hq : m.cues = ahead ++ e :: rest)
    (hahead : ∀ x ∈ ahead, x.wait = false) (he : e.wait = true) : m.takeFused p o =
      { matcher := { m with cues := rest, capture := 2, miss := 0 }, reports := matchReports ahead e 0 o,
        freed := matchFreed ahead e, message := some (.waitEnd o.frame) } := by
  unfold Matcher.takeFused Matcher.matchWait
  rw [ha, hq, cueSplit_found hahead he]
  simp only [cuesAfter_split]
end

/-! ### The counts of a match (R108) -/

/-- Under FOLLOWING a match clears the miss count and sends Correction. -/
theorem Matcher.countMatch_following (m : Matcher) (error : Int) (anchor : Bool) :
    m.countMatch true error anchor = ({ m with miss := 0 }, .correction error anchor) := rfl

/-- Outside FOLLOWING the first match sends First capture. -/
theorem Matcher.countMatch_first {m : Matcher} (error : Int) (anchor : Bool) (h : m.capture = 0) :
    m.countMatch false error anchor = ({ m with capture := 1 }, .firstCapture) := if_pos h

/-- Outside FOLLOWING the next match sends Capture. -/
theorem Matcher.countMatch_capture {m : Matcher} (error : Int) (anchor : Bool) (h : m.capture ≠ 0) :
    m.countMatch false error anchor = ({ m with capture := 2, miss := 0 }, .capture error anchor) := if_neg h

theorem Matcher.announce_following {old : TrackerState} (m : Matcher) : m.announce old .following =
    { m with announced := .following, expiryDue := false } := by
  simp [Matcher.announce]

/-! ### Corrections of the tracker (R121 to R123) -/

/-- A phase correction that changes no state saturates nothing (R121, R132). -/
theorem Tracker.phaseCorrect_reports {i : Installed} {now : Frame} {error : Int} {anchor : Bool} {t : Tracker}
    (h : (t.phaseCorrect i now error anchor).changes = []) : (t.phaseCorrect i now error anchor).reports = [] := by
  unfold Tracker.phaseCorrect at h ⊢
  dsimp only at h ⊢
  split at h
  next hc =>
    rw [if_pos hc]
    generalize t.landing _ = l at h ⊢
    cases l with
    | free p => rfl
    | wait p => cases h
    | saturated => cases h
  next hc => rw [if_neg hc]; rfl

theorem Tracker.land_keepsState (now : Frame) (t : Tracker) (l : Landing) : (t.land now l).state = t.state := by
  cases l <;> rfl

theorem Tracker.phaseCorrect_state (i : Installed) (now : Frame) (error : Int) (anchor : Bool) (t : Tracker) :
    (t.phaseCorrect i now error anchor).tracker.state = t.state := by
  unfold Tracker.phaseCorrect
  dsimp only
  split
  · exact Tracker.land_keepsState ..
  · rfl

/-- Both corrections likewise, behind the change of state that the message itself makes (R123). -/
theorem Tracker.correct_reports {i : Installed} {now : Frame} {error : Int} {anchor : Bool} {t : Tracker}
    {first : List (TrackerState × StateCause)} (h : (t.correct i now error anchor first).changes = first) :
    (t.correct i now error anchor first).reports = [] :=
  Tracker.phaseCorrect_reports (List.append_right_eq_self.1 h)

theorem Tracker.takeMessage_correction {t : Tracker} (i : Installed) (now : Frame) (error : Int) (anchor : Bool)
    (h : t.state = .following) :
    t.takeMessage i now (.correction error anchor) = t.correct i now error anchor [] := by
  simp [Tracker.takeMessage, Tracker.takeCorrection, h]

theorem Tracker.takeMessage_capture {t : Tracker} (i : Installed) (now : Frame) (error : Int) (anchor : Bool)
    (h : t.state = .leading ∨ t.state = .coasting) :
    t.takeMessage i now (.capture error anchor) = t.correct i now error anchor [(.following, .capture)] := by
  rcases h with h | h <;> simp [Tracker.takeMessage, Tracker.takeCorrection, h]

/-- A Wait end whose catch-up lands short of the wait stamp and within the range (R126). -/
theorem Tracker.takeMessage_waitEnd {t : Tracker} {q : Nat} (i : Installed) (now fused : Frame)
    (ht : t.state = .waiting) (hq : q = t.position + (now - fused).toNat * t.tempo * 2048 / 125)
    (hw : ∀ x, t.waitStamp = some x → q < x * 65536) (hr : q / 65536 ≤ 2147483647) :
    t.takeMessage i now (.waitEnd fused) =
      { tracker := { t with position := q, lag := 0, trail := t.trail.set (now.toNat % 512) (q / 65536) },
        reports := [], changes := [(.following, .waitEnd)] } := by
  have free : t.landing (t.position + t.catchUp now fused) = .free q := by
    subst hq
    exact Tracker.landing_free hw hr
  show t.takeWaitEnd now fused = _
  unfold Tracker.takeWaitEnd Tracker.endWait
  rw [ht]
  dsimp only
  rw [free]
  rfl

end Sys2Proof.Machine
end

section
/-! The outcomes of a fused onset over the whole state: what the matcher's event does, and its message at the tracker
(R93, R105 to R109, R121). -/

namespace Sys2Proof.Machine

section
variable {s : State} {i : Installed}

/-- A matcher's event under an installed configuration, up to its delivery (R16, R100, R121). -/
theorem State.applyMatcher_installed (r : MatcherResult) (hi : s.loader.installed = some i) : s.applyMatcher r =
    State.deliver r.message { s with
      matcher := r.matcher,
      admission := { s.admission with
        slots := r.freed.foldl (fun m n => Table.set .free m n .free) s.admission.slots },
      raised := s.raised ++ r.reports.map (s.reported .matcher) } := by
  unfold State.applyMatcher
  rw [State.raiseAll_installed (i := i) _ _ (by exact hi), State.freeSlots_fold]
  rfl

/-- A message at the tracker, which first takes the wait stamp; a changed one stops the wait timer (R110, R121). -/
theorem State.deliver_message (message : Message) (hi : s.loader.installed = some i) : s.deliver (some message) =
    State.applyTracker
      (Tracker.takeMessage i s.link.frame message { s.tracker with waitStamp := s.matcher.waitStamp })
      { s with matcher := if s.matcher.waitStamp = s.tracker.waitStamp then s.matcher else s.matcher.stopTimer } := by
  unfold State.deliver
  by_cases h : s.matcher.waitStamp = s.tracker.waitStamp
  · simp only [h, reduceCtorEq, and_false, if_false, if_true, hi]
    rfl
  · simp only [h, reduceCtorEq, and_false, if_false, hi]
    rfl

/-- A message with the wait stamp that the tracker holds (R121). -/
theorem State.deliver_messageAlone (message : Message) (hi : s.loader.installed = some i)
    (hw : s.matcher.waitStamp = s.tracker.waitStamp) :
    s.deliver (some message) = s.applyTracker (s.tracker.takeMessage i s.link.frame message) := by
  rw [State.deliver_message message hi, if_pos hw, hw]

/-- An event of the tracker that raises no report (R115). -/
theorem State.applyTracker_silent {r : TrackerResult} (h : r.reports = []) :
    s.applyTracker r = State.changeAll r.changes { s with tracker := r.tracker } := by
  simp [State.applyTracker, h, State.raiseAll]

/-- A Wait end in WAITING, whose catch-up lands short of the wait stamp and within the range: FOLLOWING is entered
(R126). -/
theorem State.deliver_waitEnd {q : Nat} (fused : Frame) (hi : s.loader.installed = some i)
    (ha : s.matcher.announced = .waiting) (ht : s.tracker.state = .waiting)
    (hq : q = s.tracker.position + (s.link.frame - fused).toNat * s.tracker.tempo * 2048 / 125)
    (hw : ∀ x, s.matcher.waitStamp = some x → q < x * 65536) (hr : q / 65536 ≤ 2147483647) :
    s.deliver (some (.waitEnd fused)) = { s with
      matcher := { s.matcher with
        timerStopped := s.matcher.timerStopped || s.matcher.waitStamp != s.tracker.waitStamp,
        announced := .following, expiryDue := false },
      tracker := { s.tracker with
        state := .following, returnState := none, waitStamp := s.matcher.waitStamp, position := q, lag := 0,
        trail := s.tracker.trail.set (s.link.frame.toNat % 512) (q / 65536) },
      fuser := { s.fuser with running := true },
      run := { s.run with announced := .following },
      loader := { s.loader with announced := .following },
      report := { s.report with refreshDue := true },
      raised := s.raised ++
        [{ block := .tracker,
           record := { report := .state .waiting .following .waitEnd, frame := s.link.frame,
                       position := q / 65536 } }] } := by
  rw [State.deliver_message _ hi, Tracker.takeMessage_waitEnd i _ _ (by exact ht) (by exact hq) (by exact hw) hr,
    State.applyTracker_silent rfl, State.changeAll, State.changeAll,
    State.changeState_running (i := i) (by exact hi) rfl (by simp [ht]), Matcher.announce_following]
  have stops : s.matcher.stopTimer = { s.matcher with timerStopped := true, expiryDue := false } := if_pos ha
  by_cases h : s.matcher.waitStamp = s.tracker.waitStamp
  · simp [h, ht, Tracker.enter, State.reported, Tracker.integer, Config.unitsPerSu]
  · simp [h, ht, stops, Tracker.enter, State.reported, Tracker.integer, Config.unitsPerSu]

/-! ### A fused onset at the matcher -/

section
variable {p : Nat} {o : FusedOnset}

/-- Outside the running states (R105). -/
theorem State.applyMatcher_discarded (ha : s.matcher.announced.running = false)
    (hw : s.matcher.waitStamp = s.tracker.waitStamp) : s.applyMatcher (s.matcher.takeFused p o) = s := by
  rw [Matcher.takeFused_discarded p o ha]
  exact State.deliver_unchanged hw

/-- A stray onset is reported and does no more (R106). -/
theorem State.applyMatcher_stray (hi : s.loader.installed = some i) (ha : s.matcher.announced.advancing = true)
    (hw : s.matcher.waitStamp = s.tracker.waitStamp)
    (hq : ∀ x ∈ s.matcher.cues, ¬ (p ≤ x.stamp + x.w ∧ x.stamp ≤ p + x.w)) :
    s.applyMatcher (s.matcher.takeFused p o) = { s with
      raised := s.raised ++ [s.reported .matcher (.stray o.frame o.strength o.pickups p)] } := by
  rw [Matcher.takeFused_advancing p o ha, Matcher.matchWindow_stray p o _ hq, State.applyMatcher_installed _ hi]
  exact State.deliver_unchanged hw

variable {ahead rest : List CueEntry} {e : CueEntry}

/-- The reports of a match as the matcher raises them (R107, R108). -/
theorem State.matchReports_raised (s : State) (ahead : List CueEntry) (e : CueEntry) (error : Int) (o : FusedOnset) :
    (matchReports ahead e error o).map (s.reported .matcher) =
      ahead.map (fun x => s.reported .matcher (.miss x.slot x.stamp x.w x.wait x.anchor true false))
        ++ [s.reported .matcher (.matched e.slot error o.strength o.pickups)] := by
  simp [matchReports, missReport]

/-- What a match of cue e at an error does ahead of its counts and its message: the cues up to it leave, their slots
are FREE, and the matcher's reports are raised (R107, R108). -/
def State.heard (o : FusedOnset) (error : Int) (ahead rest : List CueEntry) (e : CueEntry) (s : State) : State :=
  { s with
    matcher := { s.matcher with cues := rest },
    admission := { s.admission with
      slots := (matchFreed ahead e).foldl (fun m n => Table.set .free m n .free) s.admission.slots },
    raised := s.raised ++ (matchReports ahead e error o).map (s.reported .matcher) }

/-- A match that ends a wait, and whose catch-up lands short of the wait stamp and within the range (R109, R126). -/
theorem State.applyMatcher_endsWait {q : Nat} (hi : s.loader.installed = some i) (ha : s.matcher.announced = .waiting)
    (ht : s.tracker.state = .waiting) (hq : s.matcher.cues = ahead ++ e :: rest) (hahead : ∀ x ∈ ahead, x.wait = false)
    (he : e.wait = true)
    (hcatch : q = s.tracker.position + (s.link.frame - o.frame).toNat * s.tracker.tempo * 2048 / 125)
    (hbelow : ∀ x, leastWait rest = some x → q < x * 65536) (hrange : q / 65536 ≤ 2147483647) :
    s.applyMatcher (s.matcher.takeFused p o) = { s.heard o 0 ahead rest e with
      matcher := { s.matcher with
        cues := rest, capture := 2, miss := 0,
        timerStopped := s.matcher.timerStopped || leastWait rest != s.tracker.waitStamp,
        announced := .following, expiryDue := false },
      tracker := { s.tracker with
        state := .following, returnState := none, waitStamp := leastWait rest, position := q, lag := 0,
        trail := s.tracker.trail.set (s.link.frame.toNat % 512) (q / 65536) },
      fuser := { s.fuser with running := true },
      run := { s.run with announced := .following },
      loader := { s.loader with announced := .following },
      report := { s.report with refreshDue := true },
      raised := (s.heard o 0 ahead rest e).raised ++
        [{ block := .tracker,
           record := { report := .state .waiting .following .waitEnd, frame := s.link.frame,
                       position := q / 65536 } }] } := by
  rw [Matcher.takeFused_endsWait p o ha hq hahead he, State.applyMatcher_installed _ hi]
  exact State.deliver_waitEnd o.frame (by exact hi) (by exact ha) (by exact ht) (by exact hcatch) (by exact hbelow) hrange

/-- The tracker and the matcher in LEADING, FOLLOWING or COASTING, with cue e the first of the list that matches trail
position p, and the wait stamp the same without the cues up to it (R100, R106). -/
structure State.Matches (s : State) (i : Installed) (p : Nat) (ahead rest : List CueEntry) (e : CueEntry) : Prop where
  installed : s.loader.installed = some i
  advancing : s.matcher.announced.advancing = true
  agrees    : s.tracker.state = s.matcher.announced
  cues      : s.matcher.cues = ahead ++ e :: rest
  ahead     : ∀ x ∈ ahead, ¬ (p ≤ x.stamp + x.w ∧ x.stamp ≤ p + x.w)
  within    : p ≤ e.stamp + e.w ∧ e.stamp ≤ p + e.w
  least     : leastWait rest = s.tracker.waitStamp

/-- The match by its counts, and its message at the tracker (R107, R108, R121). -/
theorem State.Matches.taken {counted : Matcher} {message : Message} (h : s.Matches i p ahead rest e)
    (hc : s.matcher.countMatch (s.matcher.announced == .following) ((e.stamp : Int) - p) e.anchor
      = (counted, message)) :
    s.applyMatcher (s.matcher.takeFused p o) =
      State.applyTracker (s.tracker.takeMessage i s.link.frame message)
        { s.heard o ((e.stamp : Int) - p) ahead rest e with matcher := { counted with cues := rest } } := by
  rw [Matcher.takeFused_advancing p o h.advancing, Matcher.matchWindow_found p o _ h.cues h.ahead h.within hc,
    State.applyMatcher_installed _ h.installed]
  exact State.deliver_messageAlone message (by exact h.installed) (by exact h.least)

/-- A first match outside FOLLOWING leaves the tracker as it was (R108). -/
theorem State.Matches.first (h : s.Matches i p ahead rest e) (hf : s.matcher.announced ≠ .following)
    (hc : s.matcher.capture = 0) : s.applyMatcher (s.matcher.takeFused p o) =
      { s.heard o ((e.stamp : Int) - p) ahead rest e with matcher := { s.matcher with cues := rest, capture := 1 } } := by
  have counts := Matcher.countMatch_first ((e.stamp : Int) - p) e.anchor hc
  rw [← beq_eq_false_iff_ne.2 hf] at counts
  rw [h.taken counts, State.applyTracker_silent rfl]
  rfl

/-- A match in FOLLOWING corrects the tracker (R121, R122). -/
theorem State.Matches.corrects (h : s.Matches i p ahead rest e) {r : TrackerResult}
    (hf : s.matcher.announced = .following)
    (hr : r = s.tracker.takeMessage i s.link.frame (.correction ((e.stamp : Int) - p) e.anchor))
    (hn : r.changes = []) : s.applyMatcher (s.matcher.takeFused p o) =
      { s.heard o ((e.stamp : Int) - p) ahead rest e with
        matcher := { s.matcher with cues := rest, miss := 0 }, tracker := r.tracker } := by
  have counts := s.matcher.countMatch_following ((e.stamp : Int) - p) e.anchor
  rw [← beq_iff_eq.2 hf] at counts
  have correct := hr.trans (Tracker.takeMessage_correction i _ _ _ (h.agrees.trans hf))
  have silent : r.reports = [] := by
    rw [correct] at hn ⊢
    exact Tracker.correct_reports hn
  rw [h.taken counts, ← hr, State.applyTracker_silent silent, hn]
  rfl

/-- A match after the first in LEADING or COASTING corrects the tracker too, and FOLLOWING is entered (R123). -/
theorem State.Matches.captures (h : s.Matches i p ahead rest e) {r : TrackerResult}
    (hf : s.matcher.announced ≠ .following) (hc : s.matcher.capture ≠ 0)
    (hr : r = s.tracker.takeMessage i s.link.frame (.capture ((e.stamp : Int) - p) e.anchor))
    (hn : r.changes = [(.following, .capture)]) : s.applyMatcher (s.matcher.takeFused p o) =
      { s.heard o ((e.stamp : Int) - p) ahead rest e with
        matcher := { s.matcher with
          cues := rest, capture := 2, miss := 0, announced := .following, expiryDue := false },
        tracker := { r.tracker with state := .following, returnState := none },
        fuser := { s.fuser with running := true },
        run := { s.run with announced := .following },
        loader := { s.loader with announced := .following },
        report := { s.report with refreshDue := true },
        raised := (s.heard o ((e.stamp : Int) - p) ahead rest e).raised ++
          [{ block := .tracker,
             record := { report := .state s.tracker.state .following .capture, frame := s.link.frame,
                         position := r.tracker.position / 65536 } }] } := by
  have counts := Matcher.countMatch_capture ((e.stamp : Int) - p) e.anchor hc
  rw [← beq_eq_false_iff_ne.2 hf] at counts
  have outside : s.tracker.state = .leading ∨ s.tracker.state = .coasting := by
    rw [h.agrees]
    exact (TrackerState.advancing_iff.1 h.advancing).imp_right (Or.resolve_left · hf)
  have correct := hr.trans (Tracker.takeMessage_capture i _ _ _ outside)
  have silent : r.reports = [] := by
    rw [correct] at hn ⊢
    exact Tracker.correct_reports hn
  have stays : r.tracker.state = s.tracker.state := by
    rw [correct]
    exact Tracker.phaseCorrect_state ..
  rw [h.taken counts, ← hr, State.applyTracker_silent silent, hn, State.changeAll, State.changeAll,
    State.changeState_running (i := i) (by exact h.installed) rfl
      (by rw [stays]; rcases outside with h | h <;> rw [h] <;> nofun), Matcher.announce_following]
  rw [← stays]
  rfl
end

/-! ### WINDOW_CLOSE (R90, R91) -/

theorem Window.fused_below {threshold : Nat} {w : Window} (h : w.sum < threshold) : w.fused threshold = none :=
  if_neg (Nat.not_le.2 h)

/-- The fused onset takes the frame of the leading contributor (R92, R93). -/
theorem Window.fused_leading {threshold : Nat} {w : Window} {before behind : List Contributor} {c : Contributor}
    (h : threshold ≤ w.sum) (hc : w.contributors = before ++ c :: behind)
    (h1 : ∀ d ∈ before, d.contribution < c.contribution) (h2 : ∀ d ∈ behind, d.contribution ≤ c.contribution) :
    w.fused threshold = some
      { frame := c.compensated, strength := w.sum,
        contributors := w.contributors.map (fun d => (d.pickup, d.contribution)) } := by
  rw [Window.fused, if_pos h, hc, leading_first h1 h2]
  rfl

/-- The window is taken away (R90). -/
def State.windowTaken (s : State) : State := { s with fuser := { s.fuser with window := none } }

/-- A WINDOW_CLOSE past the closing frame hands on what the window yields (R90, R93). -/
theorem windowClose_past {w : Window} {v : State} (hwait : s.path.waiting = none) (hi : s.loader.installed = some i)
    (hw : s.fuser.window = some w) (past : w.spans s.link.frame = false)
    (hv : s.windowTaken.takeFused (w.fused i.fusionThreshold) = v) :
    ∃ t, exec .windowClose s = .next t ∧ sameButTraffic v t := by
  have closed : s.closeWindow = v := by
    rw [← hv]
    simp [State.closeWindow, State.windowTaken, hi, Fuser.overdue, Fuser.close, hw, past]
  refine pumped (u := s.closeWindow) rfl closed ?_
  rw [← closed, State.closeWindow_waiting, hwait]

/-- With no window open, or one not yet past its closing frame, a WINDOW_CLOSE does nothing (R90; log entry 1). -/
theorem State.closeWindow_early
    (h : s.fuser.window = none ∨ ∃ w, s.fuser.window = some w ∧ w.spans s.link.frame = true) : s.closeWindow = s := by
  have early : s.fuser.overdue s.link.frame = false := by
    rcases h with h | ⟨w, h, hs⟩
    · simp [Fuser.overdue, h]
    · simp [Fuser.overdue, h, hs]
  unfold State.closeWindow
  cases s.loader.installed with
  | none => rfl
  | some i => simp [early]
end

end Sys2Proof.Machine

open Sys2Proof Sys2Proof.Machine

/-- Settles O41: what the window yields by its threshold; then the fused onset by the matcher's outcome, and the
matcher's message by the tracker's state. -/
theorem windowCloseTaken : Obligations.WindowCloseTaken := by
  refine ⟨fun i w s hwait hi hw past => ⟨fun below => ?_, ?_⟩, fun s hwait early => ?_⟩
  · have silent := Window.fused_below below
    exact ⟨silent, windowClose_past hwait hi hw past (by rw [silent]; rfl)⟩
  · intro before behind c o p reaches split hbefore hbehind ho hp
    have yields : w.fused i.fusionThreshold = some o := ho ▸ Window.fused_leading reaches split hbefore hbehind
    have closes {v : State} (hv : s.windowTaken.takeFused (some o) = v) :
        ∃ t, exec .windowClose s = .next t ∧ sameButTraffic v t :=
      windowClose_past hwait hi hw past (yields.symm ▸ hv)
    have matched {v : State} (hv : s.windowTaken.applyMatcher (s.matcher.takeFused p o) = v) :
        ∃ t, exec .windowClose s = .next t ∧ sameButTraffic v t :=
      closes (by subst ho hp; exact hv)
    have pickups : o.pickups = w.contributors.map (fun d => d.pickup) := by
      rw [ho]
      exact List.map_map
    refine ⟨yields, closes rfl, fun ha hstamp hq => ?_, ?_, ?_, fun ha hstamp => ?_⟩
    · rw [← pickups]
      exact matched (State.applyMatcher_stray (s := s.windowTaken) hi (TrackerState.advancing_iff.2 ha) hstamp hq)
    · intro ahead rest e reports slots error ha ht hq hahead he he' hleast herror hreports hslots
      have onset : s.windowTaken.Matches i p ahead rest e :=
        ⟨hi, TrackerState.advancing_iff.2 ha, ht, hq, hahead, ⟨he, he'⟩, hleast⟩
      have raised : reports = (matchReports ahead e error o).map (s.reported .matcher) := by
        rw [hreports, State.matchReports_raised, pickups]
      subst herror raised hslots
      refine ⟨fun hf hc => matched (onset.first hf hc), fun r hf hr hn => matched (onset.corrects hf hr hn),
        fun r hf hc hr hn => ?_⟩
      obtain ⟨t, ht, -, ⟨⟨adm, port, wait, rfl⟩, -⟩, -⟩ := matched (onset.captures hf hc hr hn)
      exact ⟨_, ht, rfl, rfl, rfl, ⟨_, rfl, rfl, rfl, rfl, rfl⟩, rfl, rfl, rfl⟩
    · intro ahead rest e q ha ht hq hahead he hcatch hbelow hrange
      have ends := State.applyMatcher_endsWait (s := s.windowTaken) (p := p) (o := o) hi ha ht hq hahead he
        (by rw [ho]; exact hcatch) hbelow hrange
      obtain ⟨t, ht, -, ⟨⟨adm, port, wait, rfl⟩, -⟩, -⟩ := matched ends
      refine ⟨_, ht, rfl, rfl, rfl, rfl, rfl, rfl, ?_, rfl, rfl, rfl⟩
      show s.raised ++ (matchReports ahead e 0 o).map (s.reported .matcher) ++ [_] = _
      rw [State.matchReports_raised, pickups, List.append_assoc, List.append_assoc, List.append_assoc]
      rfl
    · exact matched (State.applyMatcher_discarded (s := s.windowTaken) ha hstamp)
  · exact pumped (u := s.closeWindow) rfl (State.closeWindow_early early) hwait
end

section
/-! A fused onset at the cue matcher by the tracker state it goes by (R105 to R109). -/

namespace Sys2Proof.Machine

section
variable {m : Matcher} {following : Bool} (p : Nat) (o : FusedOnset)

/-- The matcher matches a fused onset by window, as under FOLLOWING or as under LEADING: the announced state says which,
and the capture count does in WAITING with no WAIT cue (R105, R109). -/
def Matcher.ByWindow (following : Bool) (m : Matcher) : Prop :=
  following = true ∧ (m.announced = .following
    ∨ m.announced = .waiting ∧ (∀ x ∈ m.cues, x.wait = false) ∧ m.capture = 2)
  ∨ following = false ∧ (m.announced = .leading ∨ m.announced = .coasting
    ∨ m.announced = .waiting ∧ (∀ x ∈ m.cues, x.wait = false) ∧ m.capture ≠ 2)

/-- In WAITING with no WAIT cue in the list the capture count says under which state the window matches (R109). -/
theorem Matcher.takeFused_noWait (ha : m.announced = .waiting) (hq : ∀ x ∈ m.cues, x.wait = false) :
    m.takeFused p o = m.matchWindow (m.capture == 2) p o := by
  unfold Matcher.takeFused Matcher.matchWait
  rw [ha, cueSplit_none hq]

/-- A fused onset is matched by window, under the state that the matcher goes by (R105, R109). -/
theorem Matcher.ByWindow.takeFused_eq (h : m.ByWindow following) :
    m.takeFused p o = m.matchWindow following p o := by
  have advancing (ha : m.announced = .leading ∨ m.announced = .following ∨ m.announced = .coasting) :=
    Matcher.takeFused_advancing p o (TrackerState.advancing_iff.2 ha)
  rcases h with ⟨rfl, ha | ⟨ha, hq, hc⟩⟩ | ⟨rfl, ha | ha | ⟨ha, hq, hc⟩⟩
  · rw [advancing (.inr (.inl ha)), ha]; rfl
  · rw [Matcher.takeFused_noWait p o ha hq, hc]; rfl
  · rw [advancing (.inl ha), ha]; rfl
  · rw [advancing (.inr (.inr ha)), ha]; rfl
  · rw [Matcher.takeFused_noWait p o ha hq, beq_eq_false_iff_ne.2 hc]

/-- What a match by window leaves of the matcher, with the cues behind the match (R108). -/
def Matcher.afterMatch (following : Bool) (rest : List CueEntry) (m : Matcher) : Matcher :=
  if following then { m with cues := rest, miss := 0 }
  else if m.capture = 0 then { m with cues := rest, capture := 1 }
  else { m with cues := rest, capture := 2, miss := 0 }

/-- The message of a match by window (R108). -/
def Matcher.matchMessage (following : Bool) (error : Int) (anchor : Bool) (m : Matcher) : Message :=
  if following then .correction error anchor
  else if m.capture = 0 then .firstCapture
  else .capture error anchor

/-- The first cue in the window is matched, with the counts and the message by the state it is matched under and the
capture count so far (R106 to R108). -/
theorem Matcher.matchWindow_counted {ahead rest : List CueEntry} {e : CueEntry} (following : Bool)
    (hq : m.cues = ahead ++ e :: rest) (hahead : ∀ x ∈ ahead, ¬ (p ≤ x.stamp + x.w ∧ x.stamp ≤ p + x.w))
    (he : p ≤ e.stamp + e.w ∧ e.stamp ≤ p + e.w) :
    m.matchWindow following p o =
      { matcher := m.afterMatch following rest, reports := matchReports ahead e ((e.stamp : Int) - p) o,
        freed := matchFreed ahead e,
        message := some (m.matchMessage following ((e.stamp : Int) - p) e.anchor) } := by
  cases following with
  | true => exact Matcher.matchWindow_found p o true hq hahead he (m.countMatch_following _ _)
  | false =>
    by_cases hc : m.capture = 0
    · rw [Matcher.matchWindow_found p o false hq hahead he (Matcher.countMatch_first _ _ hc)]
      simp [Matcher.afterMatch, Matcher.matchMessage, hc]
    · rw [Matcher.matchWindow_found p o false hq hahead he (Matcher.countMatch_capture _ _ hc)]
      simp [Matcher.afterMatch, Matcher.matchMessage, hc]
end

end Sys2Proof.Machine

open Sys2Proof Sys2Proof.Machine

/-- Settles O39: by window under the state that the matcher goes by, at the first WAIT cue, or not at all. -/
theorem fusedOnsetMatched : Obligations.FusedOnsetMatched := by
  intro m o p following
  refine ⟨fun window => ?_, fun ahead behind e ha hq hahead he => ?_, fun outside => ?_⟩
  · have taken : m.takeFused p o = m.matchWindow following p o := Matcher.ByWindow.takeFused_eq p o window
    rw [taken]
    refine ⟨fun ahead behind e hq hahead he he' => ?_, fun hq => ?_⟩
    · exact Matcher.matchWindow_counted p o following hq hahead ⟨he, he'⟩
    · exact Matcher.matchWindow_stray p o following hq
  · exact Matcher.takeFused_endsWait p o ha hq hahead he
  · have discards : m.announced.running = false := by
      rcases outside with h | h | h | h <;> rw [h] <;> rfl
    exact Matcher.takeFused_discarded p o discards
end

section
/-! The expiry of a wait at the matcher and at the tracker (R110, R127). -/

namespace Sys2Proof.Machine

/-- The first WAIT cue leaves at the expiry, and the counts become 0 (R110). -/
theorem Matcher.expireWait_found {m : Matcher} {e : CueEntry} (waitLimit : Nat)
    (h : m.cues.find? (fun x => x.wait) = some e) : m.expireWait waitLimit =
      { matcher := { m with
          cues := m.cues.filter (fun x => x.slot != e.slot), capture := 0, miss := 0, timer := waitLimit,
          expiryDue := false },
        reports := [.waitExpired e.slot e.stamp], freed := [e.slot], message := some .waitExpired } := by
  unfold Matcher.expireWait
  rw [h]
  rfl

/-- A Wait expired in WAITING, off the wait stamp that remains, leads to LEADING and no further (R127). -/
theorem Tracker.takeMessage_waitExpired {t : Tracker} (i : Installed) (now : Frame) (ht : t.state = .waiting)
    (off : t.onWaitStamp = false) : t.takeMessage i now .waitExpired =
      { tracker := t, reports := [], changes := [(.leading, .waitExpired)] } := by
  show t.takeWaitExpired = _
  unfold Tracker.takeWaitExpired
  rw [ht]
  simp [Tracker.waitCheck, off]

/-- A position on one stamp is not on a wait stamp that is another (R125). -/
theorem Tracker.offWaitStamp {t : Tracker} {n : Nat} (hp : t.position = n * 65536) (hw : t.waitStamp ≠ some n) :
    t.onWaitStamp = false := by
  rw [Tracker.onWaitStamp_eq, hp]
  cases h : t.waitStamp with
  | none => rfl
  | some w =>
    have other : w ≠ n := fun hn => hw (by rw [h, hn])
    simpa using other

theorem Matcher.announce_waiting_leading (m : Matcher) : m.announce .waiting .leading =
    { m with announced := .leading, expiryDue := false } := by
  simp [Matcher.announce]

section
variable {s : State} {i : Installed}

/-- A Wait expired that brings another wait stamp to a tracker that stands on the one it held: the wait timer stops and
LEADING is entered (R110, R127). -/
theorem State.deliver_waitExpired {n : Nat} (hi : s.loader.installed = some i) (ha : s.matcher.announced = .waiting)
    (ht : s.tracker.state = .waiting) (hp : s.tracker.position = n * 65536) (hw : s.tracker.waitStamp = some n)
    (hn : s.matcher.waitStamp ≠ some n) : s.deliver (some .waitExpired) = { s with
      matcher := { s.matcher with timerStopped := true, expiryDue := false, announced := .leading },
      tracker := { s.tracker with
        state := .leading, returnState := none, resume := false, awaitingClear := false,
        waitStamp := s.matcher.waitStamp },
      fuser := { s.fuser with running := true },
      run := { s.run with announced := .leading },
      loader := { s.loader with announced := .leading },
      report := { s.report with refreshDue := true },
      raised := s.raised ++ [s.reported .tracker (.state .waiting .leading .waitExpired)] } := by
  have stops : s.matcher.stopTimer = { s.matcher with timerStopped := true, expiryDue := false } := if_pos ha
  have off : ({ s.tracker with waitStamp := s.matcher.waitStamp } : Tracker).onWaitStamp = false :=
    Tracker.offWaitStamp hp hn
  have running : s.tracker.state ≠ .winding := by rw [ht]; nofun
  rw [State.deliver_message _ hi, if_neg (by rw [hw]; exact hn), stops,
    Tracker.takeMessage_waitExpired i _ (by exact ht) off, State.applyTracker_silent rfl, State.changeAll, State.changeAll,
    State.changeState_running (i := i) (by exact hi) rfl (by exact running)]
  simp only [ht, Matcher.announce_waiting_leading]
  rfl

/-- The wait expires: the first WAIT cue leaves with its report, and the message of the matcher is delivered (R110). -/
theorem State.expireWait_due {e : CueEntry} (hi : s.loader.installed = some i) (due : s.matcher.expiryDue = true)
    (hq : s.matcher.cues.find? (fun x => x.wait) = some e) : s.expireWait =
      State.deliver (some .waitExpired) { s with
        matcher := { s.matcher with
          cues := s.matcher.cues.filter (fun x => x.slot != e.slot), capture := 0, miss := 0, timer := i.waitLimit,
          expiryDue := false },
        admission := { s.admission with slots := Table.set .free s.admission.slots e.slot .free },
        raised := s.raised ++ [s.reported .matcher (.waitExpired e.slot e.stamp)] } := by
  unfold State.expireWait
  simp only [hi, due, if_true]
  rw [Matcher.expireWait_found i.waitLimit hq, State.applyMatcher_installed _ hi]
  rfl
end

end Sys2Proof.Machine

open Sys2Proof Sys2Proof.Machine

/-- Settles O45: the matcher's expiry, then its message at the tracker, which leaves WAITING for LEADING. -/
theorem waitExpiryEntersLeading : Obligations.WaitExpiryEntersLeading := by
  intro i e s hwait hi due ha ht hq hp hw hleast
  have expired := (State.expireWait_due hi due hq).trans
    (State.deliver_waitExpired (n := e.stamp) (by exact hi) (by exact ha) (by exact ht) (by exact hp) (by exact hw)
      (by exact hleast))
  refine pumped (u := s.expireWait) rfl (expired.trans ?_) hwait
  simp only [List.append_assoc]
  rfl
end

section
/-! What the tempo's limits speak of, gathered in one record (`Pace`), what keeps it legal, and that every operation of
the model keeps it legal under the configuration that is installed (R20, R117). -/

namespace Sys2Proof.Machine

/-! ### The tempo and what bounds it -/

/-- The configuration state, whether a load is reading, the installed configuration, whether a fetch is in progress, the
hold queue and the tempo. -/
structure Pace where
  config    : ConfigState
  reading   : Bool
  installed : Option Installed
  fetching  : Bool
  hold      : List HoldEntry
  tempo     : Nat

/-- The tempo of a state and what bounds it. -/
def State.pace (s : State) : Pace :=
  { config := s.loader.config, reading := s.loader.load.isSome, installed := s.loader.installed,
    fetching := s.admission.fetch.isSome, hold := s.release.hold, tempo := s.tracker.tempo }

/-- A tempo within the limits of a configuration (R117). -/
def Installed.Allows (i : Installed) (tempo : Nat) : Prop := i.tmin ≤ tempo ∧ tempo ≤ i.tmax

/-- Under the installed configuration, if any, the tempo and the TEMPO entries lie within the limits; a load that is
reading finds the hold queue empty and no fetch, and none but the first load reads before the first installation. -/
structure Pace.Legal (installed : Option Installed) (x : Pace) : Prop where
  same    : x.installed = installed
  load    : x.reading = true → x.config = .loading ∧ x.hold = [] ∧ x.fetching = false
  first   : installed = none → x.config = .unconfigured ∨ x.config = .loading ∧ x.reading = true
  tempo   : ∀ i, installed = some i → i.Allows x.tempo
  entries : ∀ i, installed = some i → ∀ e ∈ x.hold, e.tempoWithin i = true

theorem Installed.Allows.limits {i : Installed} {n : Nat} (h : i.Allows n) : i.tmin ≤ i.tmax := Nat.le_trans h.1 h.2

theorem State.tempoLegal_iff (s : State) : s.tempoLegal = true ↔ s.pace.Legal s.loader.installed := by
  have load : s.loadLegal = true ↔ (s.loader.load.isSome = true → s.loader.config = .loading ∧ s.release.hold = []
      ∧ s.admission.fetch.isSome = false) := by
    unfold State.loadLegal
    cases s.loader.load <;> simp [and_assoc]
  unfold State.tempoLegal
  rw [Bool.and_eq_true, load]
  cases hi : s.loader.installed with
  | none =>
    simp only [Bool.or_eq_true, Bool.and_eq_true, beq_iff_eq]
    exact ⟨fun ⟨hl, hf⟩ => ⟨hi, hl, fun _ => hf, nofun, nofun⟩, fun h => ⟨h.load, h.first rfl⟩⟩
  | some i =>
    simp only [Bool.and_eq_true, decide_eq_true_iff, List.all_eq_true]
    constructor
    · rintro ⟨hl, ⟨⟨-, hmin⟩, hmax⟩, he⟩
      exact ⟨hi, hl, nofun, fun _ h => Option.some.inj h ▸ ⟨hmin, hmax⟩, fun _ h => Option.some.inj h ▸ he⟩
    · intro h
      have allowed := h.tempo i rfl
      exact ⟨h.load, ⟨⟨allowed.limits, allowed.1⟩, allowed.2⟩, h.entries i rfl⟩

section
variable {installed : Option Installed} {x : Pace}

/-- Entries leave the hold queue, or a fetch ends. -/
theorem Pace.Legal.fewer (h : x.Legal installed) {q : List HoldEntry} {f : Bool} (hq : q.Sublist x.hold)
    (hf : f = true → x.fetching = true) : Pace.Legal installed { x with hold := q, fetching := f } where
  same := h.same
  load hr := by
    obtain ⟨hc, hh, hn⟩ := h.load hr
    refine ⟨hc, List.sublist_nil.1 (hh ▸ hq), Bool.eq_false_iff.2 fun ht => ?_⟩
    exact Bool.false_ne_true (hn.symm.trans (hf ht))
  first := h.first
  tempo := h.tempo
  entries i hi e he := h.entries i hi e (hq.subset he)

/-- A load begins (R158). -/
theorem Pace.Legal.loads (h : x.Legal installed) :
    Pace.Legal installed { x with config := .loading, reading := true, fetching := false, hold := [] } where
  same := h.same
  load _ := ⟨rfl, rfl, rfl⟩
  first _ := .inr ⟨rfl, rfl⟩
  tempo := h.tempo
  entries _ _ := nofun

/-- A load is over, or none was reading, under an installed configuration (R157, R160, R161). -/
theorem Pace.Legal.configured (h : x.Legal installed) (hi : installed ≠ none) (c : ConfigState) :
    Pace.Legal installed { x with config := c, reading := false } where
  same := h.same
  load := nofun
  first hn := absurd hn hi
  tempo := h.tempo
  entries := h.entries

/-- A first load is invalid (R161). -/
theorem Pace.Legal.unconfigured (h : x.Legal none) :
    Pace.Legal none { x with config := .unconfigured, reading := false } where
  same := h.same
  load := nofun
  first _ := .inl rfl
  tempo := nofun
  entries := nofun

/-- The tempo is set within the limits (R117, R122, R124, R129). -/
theorem Pace.Legal.paced (h : x.Legal installed) {n : Nat} (hn : ∀ i, installed = some i → i.Allows n) :
    Pace.Legal installed { x with tempo := n } where
  same := h.same
  load := h.load
  first := h.first
  tempo := hn
  entries := h.entries

/-- While a configuration governs no load is reading, so a fetch may run (R17, R158). -/
theorem Pace.Legal.fetches (h : x.Legal installed) (hc : x.config ≠ .loading) (f : Bool) :
    Pace.Legal installed { x with fetching := f } where
  same := h.same
  load hr := absurd (h.load hr).1 hc
  first := h.first
  tempo := h.tempo
  entries := h.entries

/-- At the end of a fetch an entry takes its place in the hold queue, a TEMPO entry within the limits (R11, R13). -/
theorem Pace.Legal.admits (h : x.Legal installed) (hf : x.fetching = true) {e : HoldEntry}
    (he : ∀ i, installed = some i → e.tempoWithin i = true) :
    Pace.Legal installed { x with hold := holdInsert e x.hold, fetching := false } where
  same := h.same
  load hr := absurd ((h.load hr).2.2.symm.trans hf) Bool.false_ne_true
  first := h.first
  tempo := h.tempo
  entries i hi f hf := by
    rcases List.mem_cons.1 ((holdInsert_perm e x.hold).mem_iff.1 hf) with rfl | hf
    · exact he i hi
    · exact h.entries i hi f hf

/-- The end of a load installs a configuration whose limits allow the tempo (R117, R160). -/
theorem Pace.Legal.installs (h : x.Legal installed) (hr : x.reading = true) {i : Installed} {n : Nat} (hn : i.Allows n) :
    Pace.Legal (some i) { x with installed := some i, reading := false, tempo := n } where
  same := rfl
  load := nofun
  first := nofun
  tempo _ hi := Option.some.inj hi ▸ hn
  entries _ _ := by
    obtain ⟨-, hh, -⟩ := h.load hr
    rw [hh]
    nofun
end

/-! ### Operations that leave the tempo and what bounds it alone -/

@[simp] theorem State.raise_pace (b : Block) (r : Report) (s : State) : (s.raise b r).pace = s.pace := by
  unfold State.raise; split <;> rfl

@[simp] theorem State.raiseAll_pace (b : Block) (l : List Report) (s : State) :
    (State.raiseAll b l s).pace = s.pace := by
  induction l generalizing s with
  | nil => rfl
  | cons r l ih => exact (ih _).trans (s.raise_pace b r)

@[simp] theorem State.commandReport_pace (v : Word) (x : CommandResult) (y : Option CommandReason)
    (t : TrackerState) (m n : Nat) (s : State) : (s.commandReport v x y t m n).pace = s.pace :=
  State.raise_pace _ _ _

@[simp] theorem State.bringCounts_pace (s : State) : s.bringCounts.pace = s.pace := by
  unfold State.bringCounts; split
  · rfl
  · exact State.commandReport_pace ..

@[simp] theorem State.reportsFor_pace (b : Block) (s : State) : (s.reportsFor b).pace = s.pace := by
  unfold State.reportsFor; split
  · exact s.bringCounts_pace
  · rfl

@[simp] theorem State.demandRefresh_pace (s : State) : s.demandRefresh.pace = s.pace := by
  rw [State.demandRefresh_eq]; rfl

@[simp] theorem State.frameRefresh_pace (s : State) : s.frameRefresh.pace = s.pace := by
  unfold State.frameRefresh; split
  · exact s.demandRefresh_pace
  · rfl

@[simp] theorem State.noteEmptied_pace (c : StarvedCause) (n : Option Nat) (s : State) :
    (s.noteEmptied c n).pace = s.pace := by
  unfold State.noteEmptied; split
  · exact State.raise_pace _ _ _
  · rfl

theorem Tracker.enter_tempo (n : TrackerState) (t : Tracker) : (t.enter n).tempo = t.tempo := by
  cases n <;> rfl

@[simp] theorem State.announce_pace (n : TrackerState) (c : StateCause) (s : State) :
    (s.announce n c).pace = s.pace := by
  unfold State.announce
  rw [State.demandRefresh_pace, ← State.raise_pace .tracker (.state s.tracker.state n c) s]
  simp only [State.pace, Tracker.enter_tempo]

@[simp] theorem State.freeSlots_pace (l : List Nat) (s : State) : (State.freeSlots l s).pace = s.pace := by
  rw [State.freeSlots_fold]; rfl

@[simp] theorem State.requestSweep_pace (k : SweepKind) (set : Divisions) (s : State) :
    (s.requestSweep k set).pace = s.pace := rfl

@[simp] theorem State.maskChange_pace (d : Division) (v : Word) (s : State) : (s.maskChange d v).pace = s.pace := by
  unfold State.maskChange; dsimp only; split <;> rfl

@[simp] theorem State.takeHeldMasks_pace (held : Vector (Option Word) 4) (l : List Division) (s : State) :
    (State.takeHeldMasks held l s).pace = s.pace := by
  induction l generalizing s with
  | nil => rfl
  | cons d l ih =>
    unfold State.takeHeldMasks; split
    · exact ih s
    · exact (ih _).trans (s.maskChange_pace _ _)

@[simp] theorem State.sweepIfStopping_pace (s : State) : s.sweepIfStopping.pace = s.pace := by
  unfold State.sweepIfStopping; split <;> rfl

@[simp] theorem State.recomputeLag_pace (s : State) : s.recomputeLag.pace = s.pace := by
  unfold State.recomputeLag; split <;> rfl

@[simp] theorem State.drop_pace (a : Nat) (v : Word) (r : DropRegion) (s : State) : (s.drop a v r).pace = s.pace :=
  State.raise_pace _ _ _

@[simp] theorem State.consumerWrite_pace (v : Word) (s : State) : (s.consumerWrite v).pace = s.pace := by
  unfold State.consumerWrite; split <;> rfl

@[simp] theorem State.finishReportWrite_pace (s : State) : s.finishReportWrite.pace = s.pace := by
  unfold State.finishReportWrite; split <;> rfl

@[simp] theorem State.pickupHeldWrite_pace (k : PickupNo) (s : State) : (s.pickupHeldWrite k).pace = s.pace := by
  unfold State.pickupHeldWrite Loader.restartPickup; split
  · split <;> rfl
  · rfl

@[simp] theorem State.pickupCommitWrite_pace (k : PickupNo) (v : Word) (s : State) :
    (s.pickupCommitWrite k v).pace = s.pace := by
  unfold State.pickupCommitWrite
  split
  · rfl
  · split <;> rfl
  · exact s.pickupHeldWrite_pace k
  · exact s.pickupHeldWrite_pace k

@[simp] theorem State.stopMaskWrite_pace (d : Division) (v : Word) (s : State) :
    (s.stopMaskWrite d v).pace = s.pace := by
  unfold State.stopMaskWrite
  dsimp only; split
  · rfl
  · rfl
  · exact State.maskChange_pace ..
  · exact State.maskChange_pace ..

@[simp] theorem State.markDue_pace (s : State) : s.markDue.pace = s.pace := by
  unfold State.markDue; split <;> rfl

@[simp] theorem State.releaseReport_pace (i : Installed) (e : HoldEntry) (s : State) :
    (s.releaseReport i e).pace = s.pace := by
  unfold State.releaseReport; split
  · exact State.raise_pace _ _ _
  · rfl

@[simp] theorem State.noteAction_pace (i : Installed) (e : HoldEntry) (on : Bool) (s : State) :
    (s.noteAction i e on).pace = s.pace := State.raiseAll_pace _ _ _

@[simp] theorem State.listSlot_pace (n : Nat) (v : Word) (s : State) : (s.listSlot n v).pace = s.pace := by
  unfold State.listSlot; split
  · exact State.raise_pace _ _ _
  · rfl

/-! ### The arbiter leaves them alone (R155) -/

@[simp] theorem State.grant_pace (a : PortAccess) (s : State) : (s.grant a).pace = s.pace := by
  cases a <;> rfl

@[simp] theorem State.countYield_pace (s : State) : s.countYield.pace = s.pace := by
  unfold State.countYield; split <;> rfl

@[simp] theorem State.grantPart_pace (s : State) : s.grantPart.pace = s.pace := by
  unfold State.grantPart; split
  · rfl
  · rfl
  · simp

@[simp] theorem State.grantWriteBack_pace (s : State) : s.grantWriteBack.pace = s.pace := by
  unfold State.grantWriteBack; split
  · simp
  · rfl

@[simp] theorem State.grantProcessor_pace (a : ProcAccess) (s : State) : (s.grantProcessor a).pace = s.pace := by
  unfold State.grantProcessor; split
  · rfl
  · split
    · exact (State.grantPart_pace _).trans (State.drop_pace _ _ _ s.takeWaiting)
    · rfl

@[simp] theorem State.arbitrate_pace (s : State) : s.arbitrate.pace = s.pace := by
  unfold State.arbitrate; split
  · rfl
  · split
    · exact s.grantPart_pace
    · split
      · exact s.grantProcessor_pace _
      · exact s.grantPart_pace

@[simp] theorem State.postFetch_pace (s : State) : s.postFetch.pace = s.pace := by
  unfold State.postFetch; split
  · split <;> rfl
  · rfl

/-! ### What else an operation does to them -/

theorem State.setConfig_pace (c : ConfigState) (s : State) : (s.setConfig c).pace = { s.pace with config := c } := by
  rw [State.setConfig_eq]; rfl

theorem State.loadStart_pace (s : State) : s.loadStart.pace =
    { s.pace with config := .loading, reading := true, fetching := false, hold := [] } := by
  rw [State.loadStart_eq]; rfl

theorem State.enterConfigured_pace (s : State) :
    s.enterConfigured.pace = { s.pace with config := .configured, reading := false } := by
  unfold State.enterConfigured
  rw [State.takeHeldMasks_pace, State.setConfig_eq]
  rfl

/-- The tempo at an installation is the reset tempo brought within the limits (R117). -/
theorem State.install_pace (ws : List Word) (s : State) : (s.install ws).pace =
    { s.pace with
      installed := some (parseInstalled ws), reading := false,
      tempo := min (parseInstalled ws).tmax (max (parseInstalled ws).tmin 1920) } := by
  have taken : s.takeRaised.pace = s.pace := s.bringCounts_pace
  unfold State.install
  rw [State.recomputeLag_pace, ← taken]
  rfl

/-! ### States that stay legal under the configuration that is installed -/

/-- If the tempo of state s is legal under an installed configuration, so is that of state t under the same. -/
def State.KeepsPace (s t : State) : Prop := ∀ i, s.pace.Legal i → t.pace.Legal i

theorem State.KeepsPace.refl (s : State) : s.KeepsPace s := fun _ => id

theorem State.KeepsPace.trans {s t u : State} (h : s.KeepsPace t) (k : t.KeepsPace u) : s.KeepsPace u :=
  fun i hs => k i (h i hs)

theorem State.KeepsPace.same {s t : State} (h : t.pace = s.pace) : s.KeepsPace t := fun _ hs => h ▸ hs

theorem State.KeepsPace.from {s t u : State} (h : t.KeepsPace u) (k : t.pace = s.pace) : s.KeepsPace u :=
  (State.KeepsPace.same k).trans h

theorem State.KeepsPace.to {s t u : State} (h : s.KeepsPace t) (k : u.pace = t.pace) : s.KeepsPace u :=
  h.trans (.same k)

/-- Entries leave the hold queue, or a fetch ends. -/
theorem State.KeepsPace.fewer {s t : State} (hq : t.release.hold.Sublist s.release.hold)
    (hf : t.admission.fetch.isSome = true → s.admission.fetch.isSome = true)
    (ht : t.pace = { s.pace with hold := t.release.hold, fetching := t.admission.fetch.isSome }) : s.KeepsPace t :=
  fun _ hs => ht ▸ hs.fewer hq hf

/-- While a configuration governs a fetch may begin (R6, R17). -/
theorem State.KeepsPace.fetches {s t : State} (hg : s.governed = true)
    (ht : t.pace = { s.pace with fetching := t.admission.fetch.isSome }) : s.KeepsPace t := by
  have governs : s.loader.config ≠ .loading := by
    rcases s.governed_iff.1 hg with h | h <;> rw [h] <;> nofun
  exact fun _ hs => ht ▸ hs.fetches governs _

theorem State.beginFetch_keepsPace (s : State) : s.KeepsPace s.beginFetch := by
  unfold State.beginFetch; split
  · exact .refl s
  · split
    · next h => exact .fetches (Bool.and_eq_true _ _ ▸ h).1 rfl
    · exact .refl s

theorem State.pump_keepsPace (s : State) : s.KeepsPace s.pump := by
  have arbitrated : s.beginFetch.postFetch.arbitrate.pace = s.beginFetch.pace := by simp
  exact s.beginFetch_keepsPace.to arbitrated

/-! ### Changes of tracker state (R115) -/

theorem State.loadStart_keepsPace (s : State) : s.KeepsPace s.loadStart :=
  fun _ hs => s.loadStart_pace ▸ hs.loads

theorem State.teardown_keepsPace (s : State) : s.KeepsPace s.teardown :=
  .fewer (List.nil_sublist _) nofun rfl

theorem State.beginRun_keepsPace (b : Bool) (s : State) : s.KeepsPace (s.beginRun b) := by
  refine .to ?_ (State.noteEmptied_pace _ _ _)
  split
  · exact .same rfl
  · exact .refl s

theorem State.changeState_keepsPace (n : TrackerState) (c : StateCause) (s : State) :
    s.KeepsPace (s.changeState n c) := by
  have announced := s.announce_pace n c
  unfold State.changeState
  cases n with
  | stopping => exact (State.teardown_keepsPace _).from announced
  | halted => exact .same announced
  | leading =>
    dsimp only; split
    · exact (State.beginRun_keepsPace _ _).from announced
    · exact .same announced
  | idle =>
    dsimp only; split
    · exact (State.loadStart_keepsPace _).from announced
    · exact .same announced
  | winding | following | coasting | waiting => exact .same announced

theorem State.changeAll_keepsPace (l : List (TrackerState × StateCause)) (s : State) :
    s.KeepsPace (State.changeAll l s) := by
  induction l generalizing s with
  | nil => exact .refl s
  | cons c l ih => exact (State.changeState_keepsPace _ _ _).trans (ih _)

/-- An event of the tracker that leaves the tempo within the limits. -/
theorem State.applyTracker_keepsPace {r : TrackerResult} {s : State}
    (h : ∀ i, s.loader.installed = some i → i.Allows s.tracker.tempo → i.Allows r.tracker.tempo) :
    s.KeepsPace (s.applyTracker r) := by
  refine .trans (t := { s with tracker := r.tracker }) (fun i hs => ?_)
    ((State.changeAll_keepsPace _ _).from (State.raiseAll_pace _ _ _))
  exact hs.paced fun j hj => h j (hs.same.trans hj) (hs.tempo j hj)

/-! ### The tempo through the events of the tracker (R117, R122) -/

/-- A value brought into a range lies in it. -/
theorem clampInt_mem {lo hi : Int} (h : lo ≤ hi) (x : Int) : lo ≤ clampInt lo hi x ∧ clampInt lo hi x ≤ hi :=
  ⟨le_max_left _ _, max_le h (min_le_left _ _)⟩

theorem correctedTempo_allowed {i : Installed} (h : i.tmin ≤ i.tmax) (tempo : Nat) (e : Int) :
    i.Allows (correctedTempo i tempo e) := by
  have bounds := clampInt_mem (Int.ofNat_le.2 h) (tempo + rateCorrection i.rateGain i.maxTempoStep e)
  unfold Installed.Allows correctedTempo
  omega

theorem Tracker.land_tempo (now : Frame) (t : Tracker) (l : Landing) : (t.land now l).tempo = t.tempo := by
  cases l <;> rfl

theorem Tracker.frameStart_tempo (now : Frame) (t : Tracker) : (t.frameStart now).tracker.tempo = t.tempo := by
  obtain ⟨p, r, l, h⟩ := t.frameStart_writes now
  rw [h]

theorem Tracker.takeStamp_tempo (stamp : Option Nat) (t : Tracker) : (t.takeStamp stamp).tracker.tempo = t.tempo := by
  unfold Tracker.takeStamp
  dsimp only; split
  case h_4 => split <;> rfl
  all_goals rfl

theorem Tracker.takeWaitEnd_tempo (now fused : Frame) (t : Tracker) :
    (t.takeWaitEnd now fused).tracker.tempo = t.tempo := by
  unfold Tracker.takeWaitEnd
  split
  case h_3 => exact Tracker.land_tempo ..
  all_goals rfl

theorem Tracker.takeLoss_tempo (t : Tracker) : t.takeLoss.tracker.tempo = t.tempo := by
  unfold Tracker.takeLoss; split <;> rfl

theorem Tracker.takeWaitExpired_tempo (t : Tracker) : t.takeWaitExpired.tracker.tempo = t.tempo := by
  unfold Tracker.takeWaitExpired; split <;> rfl

theorem Tracker.phaseCorrect_tempo (i : Installed) (now : Frame) (e : Int) (anchor : Bool) (t : Tracker) :
    (t.phaseCorrect i now e anchor).tracker.tempo = t.tempo := by
  unfold Tracker.phaseCorrect
  dsimp only; split
  · exact Tracker.land_tempo ..
  · rfl

/-- A Capture or a Correction in a running state makes the rate correction, whatever else it does (R122, R123). -/
theorem Tracker.takeCorrection_tempo (i : Installed) (now : Frame) (e : Int) (anchor : Bool) {t : Tracker}
    (h : t.state.running = true) : (t.takeCorrection i now e anchor).tracker.tempo = correctedTempo i t.tempo e := by
  have corrected : ∀ first, (t.correct i now e anchor first).tracker.tempo = correctedTempo i t.tempo e := fun _ =>
    congrArg (fun n => correctedTempo i n e) (Tracker.phaseCorrect_tempo i now e anchor t)
  unfold Tracker.takeCorrection
  cases hs : t.state with
  | leading | following | coasting => exact corrected _
  | waiting => rfl
  | idle | winding | halted | stopping => simp [hs, TrackerState.running] at h

/-- Outside the running states no message has an effect (R123). -/
theorem Tracker.takeMessage_outside (i : Installed) (now : Frame) (msg : Message) {t : Tracker}
    (h : t.state.running = false) : t.takeMessage i now msg = TrackerResult.plain t := by
  cases hs : t.state with
  | leading | following | coasting | waiting => simp [hs, TrackerState.running] at h
  | idle | winding | halted | stopping =>
    cases msg <;> simp [Tracker.takeMessage, Tracker.takeCorrection, Tracker.takeWaitEnd, Tracker.takeLoss,
      Tracker.takeWaitExpired, hs]

theorem Tracker.takeMessage_allowed {i : Installed} (now : Frame) (msg : Message) {t : Tracker}
    (h : i.Allows t.tempo) : i.Allows (t.takeMessage i now msg).tracker.tempo := by
  cases hr : t.state.running with
  | false => rw [Tracker.takeMessage_outside i now msg hr]; exact h
  | true =>
    cases msg with
    | firstCapture => exact h
    | capture e anchor | correction e anchor =>
      show i.Allows (t.takeCorrection i now e anchor).tracker.tempo
      rw [Tracker.takeCorrection_tempo i now e anchor hr]
      exact correctedTempo_allowed h.limits _ _
    | waitEnd fused => exact (t.takeWaitEnd_tempo now fused).symm ▸ h
    | loss => exact t.takeLoss_tempo.symm ▸ h
    | waitExpired => exact t.takeWaitExpired_tempo.symm ▸ h

theorem Tracker.deliver_allowed {i : Installed} (now : Frame) (stamp : Option Nat) (msg : Option Message) {t : Tracker}
    (h : i.Allows t.tempo) : i.Allows (t.deliver i now stamp msg).tracker.tempo := by
  cases msg with
  | none => exact (t.takeStamp_tempo stamp).symm ▸ h
  | some m => exact Tracker.takeMessage_allowed (t := { t with waitStamp := stamp }) now m h

/-! ### The cue matcher and the sense link (R16, R100, R121) -/

theorem State.deliver_keepsPace (m : Option Message) (s : State) : s.KeepsPace (s.deliver m) := by
  unfold State.deliver; dsimp only; split
  · exact .refl s
  · generalize ht : (if s.matcher.waitStamp = s.tracker.waitStamp then s
      else { s with matcher := s.matcher.stopTimer } : State) = t
    have stopped : t.pace = s.pace := by rw [← ht]; split <;> rfl
    have installed : t.loader.installed = s.loader.installed := congrArg Pace.installed stopped
    refine .from (State.applyTracker_keepsPace fun i hi allowed => ?_) stopped
    rw [← installed, hi]
    exact Tracker.deliver_allowed _ _ m allowed

theorem State.applyMatcher_keepsPace (r : MatcherResult) (s : State) : s.KeepsPace (s.applyMatcher r) :=
  (State.deliver_keepsPace _ _).from ((State.freeSlots_pace _ _).trans (State.raiseAll_pace _ _ _))

theorem State.takeFused_keepsPace (o : Option FusedOnset) (s : State) : s.KeepsPace (s.takeFused o) := by
  unfold State.takeFused; split
  · exact .refl s
  · exact State.applyMatcher_keepsPace _ _

theorem State.takeOnset_keepsPace (o : Option Onset) (s : State) : s.KeepsPace (s.takeOnset o) := by
  unfold State.takeOnset; split
  · exact (State.takeFused_keepsPace _ _).from rfl
  · exact .refl s

theorem State.applyPickup_keepsPace (k : PickupNo) (r : PickupResult) (s : State) :
    s.KeepsPace (s.applyPickup k r) := by
  refine (State.takeOnset_keepsPace _ _).from ((State.recomputeLag_pace _).trans ?_)
  split
  · exact State.raise_pace _ _ _
  · rfl

theorem State.pickupWord_keepsPace (w : Word) (s : State) : s.KeepsPace (s.pickupWord w) := by
  unfold State.pickupWord; split
  · exact .refl s
  · split
    · exact .same rfl
    · exact (State.applyPickup_keepsPace _ _ _).from rfl

/-! ### The admission unit (chapter 1) -/

theorem State.withdrawNote_keepsPace (n : Nat) (s : State) : s.KeepsPace (s.withdrawNote n) := by
  unfold State.withdrawNote; dsimp only; split
  · exact .same rfl
  · have fewer : s.KeepsPace { s.setSlot n .free with
        release := { s.release with hold := holdRemove n s.release.hold } } := .fewer List.filter_sublist id rfl
    exact fewer.to (by simp)

theorem State.withdrawCue_keepsPace (n : Nat) (s : State) : s.KeepsPace (s.withdrawCue n) := by
  unfold State.withdrawCue; dsimp only; split
  · exact .same rfl
  · exact (State.deliver_keepsPace _ _).from (State.raise_pace _ _ _)

theorem State.editSlot_keepsPace (n : Nat) {s : State} (hg : s.governed = true) : s.KeepsPace (s.editSlot n) := by
  unfold State.editSlot; split
  · exact .refl s
  · exact .refl s
  · exact .fetches hg rfl
  · exact s.withdrawNote_keepsPace n
  · exact s.withdrawCue_keepsPace n

theorem State.emptySlot_keepsPace (n : Nat) (s : State) : s.KeepsPace (s.emptySlot n) := by
  unfold State.emptySlot; split
  · exact .refl s
  · exact .same rfl
  · exact .fewer (.refl _) nofun rfl
  · exact s.withdrawNote_keepsPace n
  · exact s.withdrawCue_keepsPace n

theorem State.commitSlot_keepsPace (n : Nat) (v : Word) {s : State} (hg : s.governed = true) :
    s.KeepsPace (s.commitSlot n v) := by
  unfold State.commitSlot; split
  · exact .same (s.listSlot_pace n v)
  · exact .same rfl
  · exact .fetches hg rfl
  · exact (s.withdrawNote_keepsPace n).to (State.listSlot_pace n v _)
  · exact (s.withdrawCue_keepsPace n).to (State.listSlot_pace n v _)

theorem State.scoreWrite_keepsPace (n k : Nat) (v : Word) (s : State) : s.KeepsPace (s.scoreWrite n k v) := by
  unfold State.scoreWrite; split
  next hg =>
    split
    · exact State.editSlot_keepsPace n hg
    · split
      · exact s.emptySlot_keepsPace n
      · exact State.commitSlot_keepsPace n v hg
  next => exact .refl s

/-- A TEMPO record without a form error lies within the limits (R11). -/
theorem FetchedRecord.holdEntry_within {r : FetchedRecord} {i : Installed} {k : HoldKind} (slot order : Nat)
    (h : r.formError i.tmin i.tmax = none) (hk : (commitKind r.commit).toHold = some k) :
    (r.holdEntry slot order k).tempoWithin i = true := by
  have passes : r.payloadFails i.tmin i.tmax = false := by
    unfold FetchedRecord.formError at h
    repeat' split at h
    all_goals simp_all
  cases hc : commitKind r.commit with
  | tempo =>
    rw [hc] at hk
    cases hk
    simp only [FetchedRecord.payloadFails, hc, Bool.or_eq_false_iff, decide_eq_false_iff_not, Nat.not_lt] at passes
    simp [HoldEntry.tempoWithin, FetchedRecord.holdEntry, passes]
  | noteOn | noteOff | registration | mark => rw [hc] at hk; cases hk; rfl
  | empty | cue | illegal => rw [hc] at hk; cases hk

/-- The offer of a fetched record to the hold queue (R13, R22). -/
theorem State.offerHold_keepsPace {s t : State} {e : HoldEntry} (hf : s.admission.fetch.isSome = true)
    (ht : t.pace = { s.pace with fetching := false })
    (he : ∀ i, s.loader.installed = some i → e.tempoWithin i = true) : s.KeepsPace (t.offerHold e) := by
  have ended : s.KeepsPace t := fun _ hs => ht ▸ hs.fewer (.refl _) nofun
  unfold State.offerHold; split
  · exact ended.to (State.raise_pace _ _ _)
  · intro i hs
    have placed := hs.admits hf fun j hj => he j (hs.same.trans hj)
    have hold : t.release.hold = s.release.hold := congrArg Pace.hold ht
    have pace : State.pace (State.admitted e.slot .heldNote { t with
        release := { t.release with hold := holdInsert e t.release.hold } }) =
        { t.pace with hold := holdInsert e t.release.hold } := rfl
    rw [pace, ht, hold]
    exact placed

/-- The end of a fetch (R7, R11 to R14). -/
theorem State.judgeRecord_keepsPace {s : State} {i : Installed} (n : Nat) (r : FetchedRecord)
    (hi : s.loader.installed = some i) (hf : s.admission.fetch.isSome = true) :
    s.KeepsPace (s.leaveList.judgeRecord i n r) := by
  have ended : s.KeepsPace s.leaveList := .fewer (.refl _) nofun rfl
  unfold State.judgeRecord; split
  · exact ended.to (State.raise_pace _ _ _)
  next hform =>
    split
    · exact ended.to (State.raise_pace _ _ _)
    · unfold State.placeRecord
      dsimp only; split
      next k hk =>
        refine State.offerHold_keepsPace hf rfl fun j hj => ?_
        rw [hi] at hj
        cases hj
        exact FetchedRecord.holdEntry_within n _ hform hk
      next =>
        unfold State.offerCue; split
        · exact ended.to (State.raise_pace _ _ _)
        · exact ended.trans ((State.deliver_keepsPace _ _).from rfl)

theorem State.fetchWord_keepsPace (w : Word) (s : State) : s.KeepsPace (s.fetchWord w) := by
  unfold State.fetchWord; split
  next hi hf _ => exact State.judgeRecord_keepsPace _ _ hi (by rw [hf]; rfl)
  next hf _ => exact .same (by simp [State.pace, hf])
  next => exact .refl s

end Sys2Proof.Machine
end

section
/-! The tempo within the installed limits through the run controller, the memory path, the frame and the rows (R117). -/

namespace Sys2Proof.Machine

/-! ### The run controller (chapter 8) -/

theorem State.askClear_keepsPace (s : State) : s.KeepsPace s.askClear :=
  .same ((State.freeSlots_pace _ _).trans (State.raiseAll_pace _ _ _))

theorem State.leaveWinding_keepsPace (s : State) : s.KeepsPace s.leaveWinding := by
  unfold State.leaveWinding; split
  · split
    · exact s.askClear_keepsPace
    · exact State.changeAll_keepsPace _ _
  · exact .refl s

theorem State.takeClearAnswer_keepsPace (s : State) : s.KeepsPace s.takeClearAnswer := by
  unfold State.takeClearAnswer; split
  · have delivered : s.KeepsPace (State.deliver none { s with matcher := { s.matcher with clearAnswer := false } }) :=
      (State.deliver_keepsPace _ _).from rfl
    dsimp only; split
    · exact delivered.trans ((State.leaveWinding_keepsPace _).from rfl)
    · exact delivered
  · exact .refl s

theorem State.reportReady_keepsPace (s : State) : s.KeepsPace s.reportReady := by
  unfold State.reportReady; split
  · exact (State.leaveWinding_keepsPace _).from (State.raise_pace _ _ _)
  · exact .refl s

theorem State.runAfterSettle_keepsPace (s : State) : s.KeepsPace s.runAfterSettle := by
  unfold State.runAfterSettle; dsimp only; split
  · exact .same rfl
  · refine .to ?_ (rfl : State.pace (State.runAfterLimit _) = State.pace _)
    exact (State.reportReady_keepsPace _).from rfl

theorem State.runAfterDrop_keepsPace (s : State) : s.KeepsPace s.runAfterDrop := by
  unfold State.runAfterDrop; dsimp only; split
  · exact .same rfl
  · exact (State.runAfterSettle_keepsPace _).from rfl

theorem State.runAfterCancel_keepsPace (s : State) : s.KeepsPace s.runAfterCancel := by
  unfold State.runAfterCancel; split
  · exact .same rfl
  · exact s.runAfterDrop_keepsPace

theorem State.runFrame_keepsPace (c w : Bool) (s : State) : s.KeepsPace (s.runFrame c w) := by
  unfold State.runFrame; dsimp only; split
  · exact (State.runAfterCancel_keepsPace _).from rfl
  · exact .same rfl

theorem State.cancelEffect_keepsPace (s : State) : s.KeepsPace s.cancelEffect := by
  unfold State.cancelEffect; split
  · dsimp only; split
    · exact .same (State.raise_pace _ _ _)
    · exact (State.changeState_keepsPace _ _ _).from (State.raise_pace _ _ _)
  · exact .refl s

theorem State.haltByDrop_keepsPace (s : State) : s.KeepsPace s.haltByDrop := by
  unfold State.haltByDrop; split
  · exact State.changeState_keepsPace _ _ _
  · exact .refl s

theorem State.runCancelAssert_keepsPace (s : State) : s.KeepsPace s.runCancelAssert := by
  have cancelled : s.KeepsPace (State.cancelEffect { s.setStage .done with
      run := { (s.setStage .done).run with cancelHeld := true } }) := (State.cancelEffect_keepsPace _).from rfl
  exact cancelled.trans (State.runAfterCancel_keepsPace _)

theorem State.runCancelRelease_keepsPace (s : State) : s.KeepsPace s.runCancelRelease := by
  unfold State.runCancelRelease
  exact (State.runAfterCancel_keepsPace _).from rfl

theorem State.runDrop_keepsPace (s : State) : s.KeepsPace s.runDrop := by
  have dropped : s.KeepsPace (State.raise .run (.wind (.dropped s.run.announced)) { s.setStage .done with
      run := { (s.setStage .done).run with wind := .unconfirmed } }) := .same (State.raise_pace _ _ _)
  exact (dropped.trans (State.haltByDrop_keepsPace _)).trans (State.runAfterDrop_keepsPace _)

theorem State.runConfirm_keepsPace (s : State) : s.KeepsPace s.runConfirm := by
  unfold State.runConfirm
  exact (State.runAfterSettle_keepsPace _).from rfl

theorem State.runLimit_keepsPace (s : State) : s.KeepsPace s.runLimit := by
  have raised := State.raise_pace .run (.wind (.limit s.run.wind)) (s.setStage .done)
  unfold State.runLimit
  refine .to ?_ (rfl : State.pace (State.runAfterLimit _) = State.pace _)
  dsimp only; split
  · exact (State.changeState_keepsPace _ _ _).from raised
  · exact .same raised

theorem State.runStage_keepsPace (s : State) : s.KeepsPace s.runStage := by
  unfold State.runStage; split
  · exact .refl s
  · exact s.runCancelAssert_keepsPace
  · exact s.runCancelRelease_keepsPace
  · exact s.runDrop_keepsPace
  · exact s.runConfirm_keepsPace
  · exact s.runLimit_keepsPace
  · exact .same rfl

theorem State.finishRun_keepsPace (s : State) : s.KeepsPace s.finishRun :=
  ((((State.runStage_keepsPace s).trans (State.runStage_keepsPace _)).trans (State.runStage_keepsPace _)).trans
    (State.runStage_keepsPace _)).trans (State.runStage_keepsPace _)

theorem State.dropBelow_keepsPace (stamp : Nat) (s : State) : s.KeepsPace (s.dropBelow stamp) := by
  rw [State.dropBelow_eq]
  exact .fewer List.filter_sublist id rfl

theorem State.bringCounts_nominal (s : State) : s.bringCounts.run.nominal = s.run.nominal := by
  unfold State.bringCounts State.commandReport State.raise
  split
  · rfl
  · split <;> rfl

/-- A START that is not refused brings a nominal tempo within the limits (R137). -/
theorem RunControl.startRefusal_allows {r : RunControl} {c : ConfigState} {i : Installed}
    (h : r.startRefusal c i = none) : i.Allows r.nominal.toNat := by
  unfold RunControl.startRefusal at h
  repeat' split at h
  case isFalse htempo => exact ⟨by omega, by omega⟩
  all_goals cases h

theorem State.takeStart_legal {s : State} {i : Installed} (hs : s.pace.Legal (some i)) :
    (s.takeStart i).pace.Legal (some i) := by
  unfold State.takeStart; split
  · exact (State.commandReport_pace ..).symm ▸ hs
  · next hpassed =>
    have started : Pace.Legal (some i) (State.pace { s.bringCounts with
        tracker := s.bringCounts.tracker.start s.run.startStamp s.bringCounts.run.nominal.toNat }) := by
      rw [State.bringCounts_nominal]
      have allowed := RunControl.startRefusal_allows hpassed
      exact (s.bringCounts_pace.symm ▸ hs).paced fun _ hi => Option.some.inj hi ▸ allowed
    have winding := State.changeState_keepsPace .winding .start _ _ started
    exact State.dropBelow_keepsPace s.run.startStamp _ _ winding

theorem State.takeStop_keepsPace (s : State) : s.KeepsPace s.takeStop := by
  unfold State.takeStop; split
  · exact .same (State.commandReport_pace ..)
  · exact (State.changeState_keepsPace _ _ _).from (State.commandReport_pace ..)

theorem State.takeResume_keepsPace (s : State) : s.KeepsPace s.takeResume := by
  unfold State.takeResume; split
  · exact .same (State.commandReport_pace ..)
  · exact (State.changeState_keepsPace _ _ _).from (s.commandReport_pace 3 .accepted none s.run.announced 0 0)

theorem State.command_keepsPace (v : Word) (s : State) : s.KeepsPace (s.command v) := by
  intro j hs
  unfold State.command
  split
  · exact hs
  next i hi =>
  obtain rfl : j = some i := hs.same.symm.trans hi
  split
  · exact hs
  have finished := s.finishRun_keepsPace _ hs
  split
  · exact State.takeStart_legal finished
  split
  · exact State.takeStop_keepsPace _ _ finished
  split
  · exact State.takeResume_keepsPace _ _ finished
  · exact (State.commandReport_pace ..).symm ▸ finished

/-! ### Loads (chapter 9) -/

theorem State.anchorCommit_keepsPace (s : State) : s.KeepsPace s.anchorCommit := by
  unfold State.anchorCommit; split
  · exact s.loadStart_keepsPace
  · exact s.loadStart_keepsPace
  next hc =>
    split
    · exact s.loadStart_keepsPace
    · intro i hs
      have installed : i ≠ none := fun hn => by
        have first := hs.first hn
        simp [State.pace, hc] at first
      have idle : s.pace.reading = false := Bool.eq_false_iff.2 fun hr => by
        have load := (hs.load hr).1
        simp [State.pace, hc] at load
      rw [State.raise_pace, State.setConfig_pace]
      have deferred := hs.configured installed .deferred
      rwa [← idle] at deferred
  next => exact .refl s

theorem State.rejectAnchor_keepsPace (r : AnchorReason) (s : State) : s.KeepsPace (s.rejectAnchor r) := by
  intro i hs
  unfold State.rejectAnchor
  split
  next hi =>
    rw [State.sweepIfStopping_pace, State.enterConfigured_pace, State.raise_pace]
    have installed : i ≠ none := by
      rw [← hs.same]
      exact Option.isSome_iff_ne_none.1 hi
    exact hs.configured installed .configured
  next hi =>
    obtain rfl : i = none := hs.same.symm.trans (Option.not_isSome_iff_eq_none.1 hi)
    have rejected := hs.unconfigured
    rw [State.setConfig_eq]
    exact rejected

/-- If the tempo of state s is legal under what is installed, so is that of state t under what is then installed. -/
def State.KeepsLimits (s t : State) : Prop := (∃ i, s.pace.Legal i) → ∃ i, t.pace.Legal i

theorem State.KeepsPace.limits {s t : State} (h : s.KeepsPace t) : s.KeepsLimits t := fun ⟨i, hs⟩ => ⟨i, h i hs⟩

theorem State.KeepsLimits.refl (s : State) : s.KeepsLimits s := id

theorem State.KeepsLimits.trans {s t u : State} (h : s.KeepsLimits t) (k : t.KeepsLimits u) : s.KeepsLimits u := k ∘ h

theorem State.KeepsLimits.from {s t u : State} (h : t.KeepsLimits u) (k : t.pace = s.pace) : s.KeepsLimits u :=
  (State.KeepsPace.same k).limits.trans h

theorem State.KeepsLimits.to {s t u : State} (h : s.KeepsLimits t) (k : u.pace = t.pace) : s.KeepsLimits u :=
  h.trans (State.KeepsPace.same k).limits

/-- The limits of a valid anchor are in order (R159). -/
theorem anchorError_limits {ws : List Word} (h : anchorError ws = none) :
    (parseInstalled ws).tmin ≤ (parseInstalled ws).tmax := by
  by_contra hlimits
  unfold anchorError at h
  simp only [if_pos (Nat.lt_of_not_le hlimits)] at h
  repeat' split at h
  all_goals cases h

theorem State.anchorReadWord_keepsLimits (w : Word) (s : State) : s.KeepsLimits (s.anchorReadWord w) := by
  unfold State.anchorReadWord
  split
  · exact .refl s
  next ws hload =>
    dsimp only; split
    · unfold State.judgeAnchor; split
      · exact (State.rejectAnchor_keepsPace _ s).limits
      next hvalid =>
        rintro ⟨i, hs⟩
        have limits := anchorError_limits hvalid
        refine ⟨_, (s.install_pace _).symm ▸ hs.installs (by simp [State.pace, hload]) ⟨?_, ?_⟩⟩ <;> omega
    · exact (State.KeepsPace.same (by simp [State.pace, hload])).limits

/-! ### The memory path (chapter 9) -/

theorem State.anchorSnoop_keepsPace (n : Nat) (v : Word) (s : State) : s.KeepsPace (s.anchorSnoop n v) := by
  unfold State.anchorSnoop
  split
  · exact .refl s
  split
  · split
    · exact .same (State.stopMaskWrite_pace _ _ _)
    · exact .refl s
  split
  · dsimp only; split
    · exact .same (State.pickupCommitWrite_pace _ _ _)
    · exact .same (State.pickupHeldWrite_pace _ _)
  split
  · exact .same rfl
  split
  · exact .same rfl
  split
  · exact .same rfl
  split
  · exact s.command_keepsPace v
  split
  · exact .same (s.consumerWrite_pace v)
  · exact s.anchorCommit_keepsPace

theorem State.storeAndSnoop_keepsPace (a : Nat) (v : Word) (s : State) : s.KeepsPace (s.storeAndSnoop a v) := by
  refine State.KeepsPace.from (t := s.store a v) ?_ rfl
  unfold State.storeAndSnoop State.snoop
  split
  · exact State.anchorSnoop_keepsPace _ _ _
  · exact State.scoreWrite_keepsPace _ _ _ _
  · exact .refl _

/-- The completion of the access that was on the port (R154). -/
theorem State.complete_keepsLimits (a : PortAccess) (s : State) : s.KeepsLimits (s.complete a) := by
  cases a with
  | chestWrite e live =>
    refine (State.KeepsPace.same ?_).limits
    cases live <;> rfl
  | fetchRead n discard =>
    cases discard with
    | true => exact .refl s
    | false => exact (s.fetchWord_keepsPace _).limits
  | anchorRead n discard =>
    cases discard with
    | true => exact .refl s
    | false => exact s.anchorReadWord_keepsLimits _
  | pickupRead n discard =>
    cases discard with
    | true => exact .refl s
    | false => exact (s.pickupWord_keepsPace _).limits
  | writeBack n v => exact (State.KeepsPace.same rfl).limits
  | reportWrite n v discard =>
    cases discard with
    | true => exact (State.KeepsPace.same rfl).limits
    | false => exact (State.KeepsPace.same (State.finishReportWrite_pace (s.store n v))).limits
  | procRead n inverted => exact (State.KeepsPace.same rfl).limits
  | procWrite n v => exact ((State.storeAndSnoop_keepsPace _ _ s.releaseProcessor).from rfl).limits

theorem State.portDone_keepsLimits (s : State) : s.KeepsLimits s.portDone := by
  unfold State.portDone; split
  · exact .refl s
  · next a _ =>
    have completed : s.KeepsLimits (State.complete a { s with path := { s.path with port := none } }) :=
      (State.complete_keepsLimits _ _).from rfl
    exact completed.trans (State.pump_keepsPace _).limits

theorem State.driveProcessor_keepsLimits (s : State) : s.KeepsLimits s.driveProcessor := by
  unfold State.driveProcessor; split
  · split
    · exact s.portDone_keepsLimits
    · exact (State.KeepsPace.same s.grantWriteBack_pace).limits
  · exact .refl s

theorem State.flushProcessor_keepsLimits (s : State) : s.KeepsLimits s.flushProcessor := by
  have next : ∀ {t : State}, s.KeepsLimits t → s.KeepsLimits t.driveProcessor :=
    fun h => h.trans (State.driveProcessor_keepsLimits _)
  exact next (next (next (next (next (next (.refl s))))))

theorem State.access_keepsLimits (a : ProcAccess) (s : State) : s.KeepsLimits (s.access a) := by
  refine s.flushProcessor_keepsLimits.trans (State.KeepsPace.limits ?_)
  unfold State.access
  dsimp only; split
  · exact .same (State.drop_pace _ _ _ _)
  · split
    · exact .same rfl
    · refine .trans ?_ (State.pump_keepsPace _)
      cases a with
      | read n => exact .same rfl
      | write n v => exact State.storeAndSnoop_keepsPace _ _ _

/-! ### The start of a frame (R59) -/

theorem State.closeWindow_keepsPace (s : State) : s.KeepsPace s.closeWindow := by
  unfold State.closeWindow; split
  · exact .refl s
  · split
    · exact (State.takeFused_keepsPace _ _).from rfl
    · exact .refl s

theorem State.expireWait_keepsPace (s : State) : s.KeepsPace s.expireWait := by
  unfold State.expireWait; split
  · exact .refl s
  · split
    · exact State.applyMatcher_keepsPace _ _
    · exact .refl s

theorem State.finishFrame_keepsPace (s : State) : s.KeepsPace s.finishFrame :=
  ((s.finishRun_keepsPace.trans (State.expireWait_keepsPace _)).trans (State.closeWindow_keepsPace _)).to
    (State.markDue_pace _)

theorem State.trackerFrame_keepsPace (s : State) : s.KeepsPace s.trackerFrame :=
  State.applyTracker_keepsPace fun _ _ allowed => (s.tracker.frameStart_tempo _).symm ▸ allowed

theorem State.expireCues_keepsPace (lossLimit trail n : Nat) (s : State) :
    s.KeepsPace (State.expireCues lossLimit trail n s) := by
  induction n generalizing s with
  | zero => exact .refl s
  | succ n ih =>
    unfold State.expireCues; split
    · exact .refl s
    · exact (State.applyMatcher_keepsPace _ _).trans (ih _)

theorem State.matcherFrame_keepsPace (s : State) : s.KeepsPace s.matcherFrame := by
  unfold State.matcherFrame; split
  · exact .refl s
  · dsimp only; split
    · exact (State.expireCues_keepsPace _ _ _ _).from rfl
    · exact .same rfl

theorem State.frameBlocks_keepsPace (c w : Bool) (o : FrameOrder) (s : State) :
    s.KeepsPace (s.frameBlocks c w o) := by
  have T := State.trackerFrame_keepsPace
  have M := State.matcherFrame_keepsPace
  have R := State.runFrame_keepsPace c w
  cases o with
  | tmr => exact ((T s).trans (M _)).trans (R _)
  | trm => exact ((T s).trans (R _)).trans (M _)
  | mtr => exact ((M s).trans (T _)).trans (R _)
  | mrt => exact ((M s).trans (R _)).trans (T _)
  | rtm => exact ((R s).trans (T _)).trans (M _)
  | rmt => exact ((R s).trans (M _)).trans (T _)

/-! ### Releases and sweeps -/

/-- A released TEMPO entry sets a tempo that lies within the limits (R20, R124). -/
theorem State.dispatch_keepsPace {i : Installed} {e : HoldEntry} {s : State} (hi : s.loader.installed = some i)
    (he : e.tempoWithin i = true) : s.KeepsPace (s.dispatch i e) := by
  unfold State.dispatch; split
  · exact .same (State.noteAction_pace _ _ _ s)
  · exact .same (State.noteAction_pace _ _ _ s)
  · exact .same (State.maskChange_pace _ _ s)
  next hk =>
    refine State.applyTracker_keepsPace fun j hj _ => ?_
    rw [hi] at hj
    cases hj
    have within : i.tmin ≤ e.payload.toNat ∧ e.payload.toNat ≤ i.tmax := by simpa [HoldEntry.tempoWithin, hk] using he
    exact within
  next => exact .same (State.raise_pace _ _ s)

theorem execRelease_keepsPace {s t : State} (h : execRelease s = .next t) : s.KeepsPace t := by
  unfold execRelease at h
  split at h
  next i e rest hi hh =>
    split at h <;> cases h
    · intro j hs
      have head : e ∈ s.release.hold := by rw [hh]; exact List.mem_cons_self
      have within : e.tempoWithin i = true := hs.entries i (hs.same.symm.trans hi) e head
      have left : s.KeepsPace (s.takeHead e.slot rest) :=
        .fewer (by rw [hh]; exact List.sublist_cons_self e rest) id rfl
      have taken := left.to (State.releaseReport_pace i e _)
      have installed : ((s.takeHead e.slot rest).releaseReport i e).loader.installed = some i :=
        (congrArg Pace.installed (State.releaseReport_pace i e _)).trans hi
      have dispatched := taken.trans (State.dispatch_keepsPace installed within)
      exact (dispatched.to (State.noteEmptied_pace _ _ _)).trans (State.pump_keepsPace _) j hs
    · exact .refl s
  next => cases h; exact .refl s

theorem execPendingOnWrite_keepsPace {s t : State} (h : execPendingOnWrite s = .next t) : s.KeepsPace t := by
  unfold execPendingOnWrite at h
  split at h
  · split at h <;> cases h
    · exact (State.pump_keepsPace _).from rfl
    · exact .refl s
  · cases h; exact .refl s

theorem execSweepWrite_keepsPace {s t : State} (h : execSweepWrite s = .next t) : s.KeepsPace t := by
  unfold execSweepWrite at h
  split at h
  · split at h <;> cases h
    · exact (State.pump_keepsPace _).from rfl
    · exact .refl s
  · cases h; exact .refl s

/-- The loader waits for its clearing sweep under the configuration that it has installed (R157, R160). -/
theorem State.loaderTakesSweepEnd_keepsPace (s : State) : s.KeepsPace s.loaderTakesSweepEnd := by
  unfold State.loaderTakesSweepEnd; split
  next h =>
    intro i hs
    have installed : i ≠ none := fun hn => by
      have first := hs.first hn
      simp [State.pace, h] at first
    exact s.enterConfigured_pace ▸ hs.configured installed .configured
  next => exact .refl s

theorem State.takeSweepEnd_keepsPace (w : Sweep) (s : State) : s.KeepsPace (s.takeSweepEnd w) := by
  have tracker : ∀ t : State, t.KeepsPace t.trackerTakesSweepEnd := fun t => by
    unfold State.trackerTakesSweepEnd; split
    · exact State.changeState_keepsPace _ _ t
    · exact .refl t
  unfold State.takeSweepEnd
  dsimp only; split
  · exact .trans ((State.loaderTakesSweepEnd_keepsPace { s with chest := s.chest.endSweep w }).from rfl) (tracker _)
  · exact .same rfl

theorem execSweepEnd_keepsPace {s t : State} (h : execSweepEnd s = .next t) : s.KeepsPace t := by
  unfold execSweepEnd at h
  split at h <;> cases h
  · exact .refl s
  · refine .trans ?_ (State.pump_keepsPace _)
    split
    · unfold State.endOff
      dsimp only; split
      · exact s.finishRun_keepsPace
      · exact s.finishRun_keepsPace.trans (State.takeSweepEnd_keepsPace _ _)
    · exact State.takeSweepEnd_keepsPace _ s

/-! ### The remaining rows -/

/-- RESET begins the first load, whatever was installed before (R164). -/
theorem execReset_keepsLimits {s t : State} (h : execReset s = .next t) : s.KeepsLimits t := by
  cases h
  have reset : Pace.Legal none (State.pace { State.reset with mem := s.mem, pending := s.pending }) :=
    ⟨rfl, nofun, fun _ => .inl rfl, nofun, nofun⟩
  exact fun _ => ⟨none, State.pump_keepsPace _ _ (State.loadStart_keepsPace _ _ reset)⟩

theorem execReportTaken_keepsPace (b : Block) {s t : State} (h : execReportTaken b s = .next t) : s.KeepsPace t := by
  unfold execReportTaken at h
  dsimp only at h
  split at h
  · cases h; exact .refl s
  · split at h <;> cases h
    · exact .refl s
    · exact .same (s.reportsFor_pace b)

theorem execRecordWriteBegin_keepsPace {s t : State} (h : execRecordWriteBegin s = .next t) : s.KeepsPace t := by
  unfold execRecordWriteBegin at h
  split at h <;> cases h
  · exact .refl s
  · exact (State.pump_keepsPace _).from rfl

/-- A row that takes effect on a condition, or changes nothing. -/
theorem stage_keepsPace {s t u : State} {p : Prop} [Decidable p] (hu : s.KeepsPace u)
    (h : (if p then .next u else .next s : Answer) = .next t) : s.KeepsPace t := by
  split at h <;> cases h
  · exact hu
  · exact .refl s

theorem execRefreshBegin_keepsPace {s t : State} (h : execRefreshBegin s = .next t) : s.KeepsPace t := by
  unfold execRefreshBegin at h
  split at h
  · cases h; exact .refl s
  · next i _ => exact stage_keepsPace ((s.beginRefresh i).pump_keepsPace.from rfl) h

/-- Every command keeps the tempo within the limits of what is then installed. -/
theorem exec_keepsLimits (c : Instr) {s t : State} (h : exec c s = .next t) : s.KeepsLimits t := by
  have access : ∀ a, exec c s = .next (s.access a) → s.KeepsLimits t := fun a ha => by
    rw [ha] at h; cases h; exact State.access_keepsLimits a s
  have completed : (exec c s = .next s.portDone ∨ exec c s = .next s) → s.KeepsLimits t := fun hd => by
    rcases hd with hd | hd <;> rw [hd] at h <;> cases h
    · exact s.portDone_keepsLimits
    · exact .refl s
  have pumped : ∀ u : State, s.KeepsPace u → s.KeepsPace u.pump := fun u hu => hu.trans u.pump_keepsPace
  cases c with
  | reset => exact execReset_keepsLimits h
  | fetchReadDone => exact completed (by simp only [exec, execFetchReadDone]; split <;> simp)
  | pickupReadDone => exact completed (by simp only [exec, execPickupReadDone]; split <;> simp)
  | anchorReadDone => exact completed (by simp only [exec, execAnchorReadDone]; split <;> simp)
  | chestWriteDone => exact completed (by simp only [exec, execChestWriteDone]; split <;> simp)
  | reportWordDone => exact completed (by simp only [exec, execReportWordDone]; split <;> simp)
  | portAccessDone => exact completed (.inl rfl)
  | writeBackGrant => cases h; exact (State.KeepsPace.same s.grantWriteBack_pace).limits
  | frameStart x w o =>
    cases h
    refine (pumped _ (.trans ?_ (State.frameBlocks_keepsPace x w o _))).limits
    exact (s.finishFrame_keepsPace.to rfl).to (State.frameRefresh_pace _)
  | repeatGapDue => cases h; exact (State.KeepsPace.same s.markDue_pace).limits
  | pendingOnWrite => exact (execPendingOnWrite_keepsPace h).limits
  | waitExpiry => cases h; exact (pumped _ s.expireWait_keepsPace).limits
  | windowClose => cases h; exact (pumped _ s.closeWindow_keepsPace).limits
  | staleWaitClearAnswer => cases h; exact (pumped _ s.takeClearAnswer_keepsPace).limits
  | cancelAssert => exact (stage_keepsPace (pumped _ s.runCancelAssert_keepsPace) h).limits
  | cancelRelease => exact (stage_keepsPace (pumped _ s.runCancelRelease_keepsPace) h).limits
  | windDrop => exact (stage_keepsPace (pumped _ s.runDrop_keepsPace) h).limits
  | windConfirmed => exact (stage_keepsPace (pumped _ s.runConfirm_keepsPace) h).limits
  | windLimit => exact (stage_keepsPace (pumped _ s.runLimit_keepsPace) h).limits
  | holdExpiry =>
    have lowered : s.KeepsPace s.runHold := .same rfl
    exact (stage_keepsPace lowered h).limits
  | slotEvent k b =>
    cases h
    exact (pumped _ ((State.applyPickup_keepsPace _ _ _).trans (State.applyPickup_keepsPace _ _ _))).limits
  | timeout k => cases h; exact (State.applyPickup_keepsPace _ _ _).limits
  | release => exact (execRelease_keepsPace h).limits
  | sweepWrite => exact (execSweepWrite_keepsPace h).limits
  | sweepEnd => exact (execSweepEnd_keepsPace h).limits
  | reportTaken b => exact (execReportTaken_keepsPace b h).limits
  | recordWriteBegin => exact (execRecordWriteBegin_keepsPace h).limits
  | refreshBegin => exact (execRefreshBegin_keepsPace h).limits
  | scoreCommit | emptyCommit | scoreEdit | chestWrite | chestRead | logStatusWrite | stopMaskWrite | pickupCommit
  | runBlockWrite | commandNone | start | stop | resume | commandUnknown | consumerIndexWrite | anchorCommit
  | otherWrite => exact access _ rfl

theorem step_keepsLimits {s t : State} (h : step s = .next t) : s.KeepsLimits t := by
  unfold step at h
  split at h
  · cases h; exact .refl s
  · next c rest _ => exact (exec_keepsLimits (s := { s with pending := rest }) c h).from rfl

end Sys2Proof.Machine

open Sys2Proof Sys2Proof.Machine

/-- Settles O9: the tempo is set by an installation, an accepted START, a rate correction and a TEMPO entry alone, and
each brings it within the limits of what is then installed. -/
theorem stepKeepsTempoLegal : Obligations.StepKeepsTempoLegal := by
  intro s t hs hst
  obtain ⟨i, legal⟩ := step_keepsLimits hst ⟨_, s.tempoLegal_iff.1 hs⟩
  obtain rfl : t.loader.installed = i := legal.same
  exact t.tempoLegal_iff.2 legal
end

section
/-! RESET with the first load that it begins (R158, R164), and an accepted RESUME (R129, R140). -/

namespace Sys2Proof.Machine

/-- With nothing ahead of the loader and the port free, the next word of its load is read (R155, R158). -/
theorem State.pump_load {s : State} {ws : List Word} (hp : s.path.port = none) (hw : s.path.waiting = none)
    (hl : s.admission.list = []) (hr : s.admission.request = none) (hf : s.chest.fifo = [])
    (hload : s.loader.load = some ws) (ht : s.tracker.state.running = false) : s.pump =
      { s with path := { s.path with port := some (.anchorRead ws.length false) }, spaceWait := none } := by
  have fetch : s.beginFetch.postFetch = s := by
    have idle : s.beginFetch = s := by unfold State.beginFetch; rw [hl]
    rw [idle]
    unfold State.postFetch
    rw [hl]
    split
    · next h => cases h
    · rfl
  have request : s.partRequest = some (.anchorRead ws.length false) := by
    simp [State.partRequest, hf, hr, State.anchorRequest, hload]
  have unyielded : s.countYield = s := by simp [State.countYield, hw]
  have granted : s.arbitrate = s.place (.anchorRead ws.length false) := by
    rw [State.arbitrate_part hp (.inl hw) request, State.grantPart_some request nofun, unyielded]
    rfl
  unfold State.pump
  rw [fetch, granted]
  simp [State.settleWait, State.waitsFor, State.releaseWaiting, ht, State.place]

/-- The tests of R140 that an accepted RESUME passes. -/
theorem RunControl.resumeRefusal_none {r : RunControl} (ha : r.announced = .halted) (hc : r.cancelHeld = false) :
    r.resumeRefusal = none := by
  simp [RunControl.resumeRefusal, ha, hc]

/-- An accepted RESUME: COMMAND, then the entry into WINDING with the resume flag set (R129, R140; log entry 14). -/
theorem State.takeResume_accepted {s : State} {i : Installed} (hi : s.loader.installed = some i)
    (ha : s.run.announced = .halted) (ht : s.tracker.state = .halted) (hc : s.run.cancelHeld = false) : s.takeResume =
      { s with
        tracker := { s.tracker with state := .winding, resume := true },
        run := { s.run with
          announced := .winding, windReq := true, limit := 0, limitRunning := true, holdRunning := false,
          readyReported := false, wind := if s.run.windReq then s.run.wind else .unconfirmed },
        matcher := { s.matcher with announced := .winding, expiryDue := false },
        fuser := { window := none, running := false },
        loader := { s.loader with announced := .winding },
        report := { s.report with refreshDue := true },
        raised := s.raised ++
          [s.reported .run (.command (.written 3) .accepted none .halted 0 0),
           s.reported .tracker (.state .halted .winding .resume)] } := by
  unfold State.takeResume State.commandReport
  rw [RunControl.resumeRefusal_none ha hc]
  dsimp only
  rw [State.raise_installed _ _ hi, State.changeState_winding (i := i) .resume (by exact hi), ha]
  simp only [ht, List.append_assoc]
  rfl

end Sys2Proof.Machine

open Sys2Proof Sys2Proof.Machine

/-- Settles O3: the load starts from the reset values, and the arbiter grants the read of its first word. -/
theorem resetBeginsFirstLoad : Obligations.ResetBeginsFirstLoad := by
  intro s
  have begun : State.loadStart { State.reset with mem := s.mem, pending := s.pending } =
      { State.reset with
        pending := s.pending, mem := s.mem, loader := { Loader.reset with config := .loading, load := some [] } } :=
    State.loadStart_eq _
  show execReset s = _
  unfold execReset
  rw [begun, State.pump_load (ws := []) rfl rfl rfl rfl rfl rfl rfl]
  rfl

/-- Settles O23: the two tests are passed, so the write of word 75 comes to the entry into WINDING. -/
theorem resumeEntersWinding : Obligations.ResumeEntersWinding := by
  intro s hf hinstalled hd ha ht hc
  obtain ⟨i, hi⟩ := Option.ne_none_iff_exists'.1 hinstalled
  have resumed := State.takeResume_accepted (s := s.store 75 3) (i := i) hi ha ht hc
  exact wrote (c := .resume) rfl hf (State.commandWrite_free s 3 i hf hi hd (by decide)) resumed rfl
end

section
/-! The answer to the clearing of stale WAIT cues (R130). -/

namespace Sys2Proof.Machine

/-- In WINDING the tracker takes a wait stamp without acting on it; the matcher at most stops its wait timer (R110,
R121, R130). -/
theorem State.deliver_winding {s : State} (h : s.tracker.state = .winding) : ∃ m,
    s.deliver none = { s with matcher := m, tracker := { s.tracker with waitStamp := s.matcher.waitStamp } }
      ∧ m.cues = s.matcher.cues ∧ m.clearAnswer = s.matcher.clearAnswer := by
  by_cases hw : s.matcher.waitStamp = s.tracker.waitStamp
  · exact ⟨s.matcher, by rw [State.deliver_unchanged hw, hw], rfl, rfl⟩
  · have stored : s.tracker.takeStamp s.matcher.waitStamp =
        TrackerResult.plain { s.tracker with waitStamp := s.matcher.waitStamp } := by
      simp [Tracker.takeStamp, h]
    refine ⟨s.matcher.stopTimer, ?_, s.matcher.stopTimer_cues, by unfold Matcher.stopTimer; split <;> rfl⟩
    unfold State.deliver
    simp only [hw, false_and, if_false]
    cases s.loader.installed <;>
      simp [Tracker.deliver, stored, State.applyTracker, TrackerResult.plain, State.raiseAll, State.changeAll]

/-- With no wait stamp below the position the tracker leaves WINDING (R130). -/
theorem State.leaveWinding_unstale {s : State} (ht : s.tracker.state = .winding)
    (hfresh : ∀ w, s.tracker.waitStamp = some w → s.tracker.position ≤ w * 65536) :
    s.leaveWinding = State.changeAll s.tracker.leadChanges s := by
  have fresh : ¬ s.tracker.waitStampStale = true := by
    rw [Tracker.waitStampStale_iff]
    rintro ⟨w, hws, hlt⟩
    exact absurd (hfresh w hws) (Nat.not_le.2 hlt)
  rw [State.leaveWinding, if_pos ht, if_neg fresh]

/-- What the entry into LEADING, and into WAITING at once, leaves of the tracker and the matcher (R125, R130). -/
theorem State.changeAll_lead_keeps {s : State} {i : Installed} (hi : s.loader.installed = some i)
    (ht : s.tracker.state = .winding) :
    (State.changeAll s.tracker.leadChanges s).tracker.waitStamp = s.tracker.waitStamp
      ∧ (State.changeAll s.tracker.leadChanges s).tracker.awaitingClear = false
      ∧ (State.changeAll s.tracker.leadChanges s).matcher.cues = s.matcher.cues
      ∧ (State.changeAll s.tracker.leadChanges s).matcher.clearAnswer = s.matcher.clearAnswer := by
  unfold Tracker.leadChanges Tracker.waitCheck
  rw [State.changeAll, State.changeState_leading _ hi ht]
  cases s.tracker.onWaitStamp with
  | false => exact ⟨rfl, rfl, rfl, rfl⟩
  | true =>
    rw [if_pos rfl, State.changeAll, State.changeState_running (i := i) (by exact hi) rfl (by exact nofun)]
    exact ⟨rfl, rfl, rfl, rfl⟩

/-- The matcher's answer at the tracker: it holds the wait stamp that remains and awaits no answer. -/
def State.answered (m : Matcher) (s : State) : State :=
  { s with
    matcher := m, tracker := { s.tracker with waitStamp := s.matcher.waitStamp, awaitingClear := false } }

/-- An answer that the tracker awaits in WINDING: it takes the wait stamp that remains, and leaves WINDING if that is
not below the position (R130; log entry 12). -/
theorem State.takeClearAnswer_awaited {s : State} (hc : s.matcher.clearAnswer = true)
    (ha : s.tracker.awaitingClear = true) (ht : s.tracker.state = .winding) : ∃ m,
    s.takeClearAnswer = (s.answered m).leaveWinding ∧ m.cues = s.matcher.cues ∧ m.clearAnswer = false := by
  obtain ⟨m, delivered, cues, answer⟩ :=
    State.deliver_winding (s := { s with matcher := { s.matcher with clearAnswer := false } }) ht
  refine ⟨m, ?_, cues, answer⟩
  unfold State.takeClearAnswer
  rw [if_pos hc]
  dsimp only
  rw [delivered, if_pos (by exact ha)]
  rfl

end Sys2Proof.Machine

open Sys2Proof Sys2Proof.Machine

/-- Settles O46: the answer brings the wait stamp that remains, and the tracker leaves WINDING as at the ready report. -/
theorem clearAnswerEntersLeading : Obligations.ClearAnswerEntersLeading := by
  intro s hwait hinstalled hc ha ht hhold hfresh
  obtain ⟨i, hi⟩ := Option.ne_none_iff_exists'.1 hinstalled
  obtain ⟨m, answered, cues, answer⟩ := State.takeClearAnswer_awaited hc ha ht
  rw [State.leaveWinding_unstale (by exact ht) (by exact hfresh)] at answered
  have led := State.changeAll_lead (s := s.answered m) hi ht
  obtain ⟨stamp, awaits, kept, sent⟩ := State.changeAll_lead_keeps (s := s.answered m) hi ht
  obtain ⟨t, hexec, -, ⟨⟨_, _, _, rfl⟩, -⟩, -⟩ :=
    pumped (c := .staleWaitClearAnswer) (s := s) rfl answered (led.waiting.trans hwait)
  have raised := led.raised.trans ((List.append_assoc _ _ _).trans (List.append_assoc _ _ _))
  have queued : s.release.hold.isEmpty = false := by simpa using hhold
  have release : ({ s.release with starved := s.release.starved || s.release.hold.isEmpty } : Release) = s.release := by
    rw [queued, Bool.or_false]
  exact ⟨_, hexec, sent.trans answer, awaits, stamp, led.position, led.tempo, led.state, kept.trans cues, led.capture,
    led.miss, led.running, led.chest, ⟨_, raised⟩, led.release.trans release, led.mem, led.link⟩
end

section
/-! The messages of the cue matcher at the tracker: the corrections by where the phase correction lands, and the Wait end
by where its catch-up lands (R119, R121 to R123, R126, R127, R132). -/

namespace Sys2Proof.Machine

/-! ### Where the position lands (R120, R121, R132) -/

theorem Tracker.land_free (now : Frame) (t : Tracker) (p : Nat) : t.land now (.free p) =
    { t with position := p, trail := t.trail.set (now.toNat % 512) (p / 65536) } := rfl

theorem Tracker.land_wait (now : Frame) (t : Tracker) (w : Nat) : t.land now (.wait (w * 65536)) =
    { t with position := w * 65536, trail := t.trail.set (now.toNat % 512) w } := by
  have whole : w * 65536 / 65536 = w := Nat.mul_div_cancel w (by decide)
  show ({ t with position := w * 65536, trail := t.trail.set (now.toNat % 512) (w * 65536 / 65536) } : Tracker) = _
  rw [whole]

theorem Tracker.land_saturated (now : Frame) (t : Tracker) : t.land now .saturated =
    { t with position := 2147483647 * 65536 + 65535, trail := t.trail.set (now.toNat % 512) 2147483647 } := by
  have whole : Config.greatestPosition / 65536 = 2147483647 := by decide
  show ({ t with
    position := Config.greatestPosition,
    trail := t.trail.set (now.toNat % 512) (Config.greatestPosition / 65536) } : Tracker) = _
  rw [whole, Config.greatestPosition_eq]

/-! ### Corrections (R121 to R123) -/

/-- The change of state that a Capture or a Correction makes itself, in LEADING, FOLLOWING and COASTING (R123). -/
def Tracker.captureChange (t : Tracker) : List (TrackerState × StateCause) :=
  if t.state = .following then [] else [(.following, .capture)]

section
variable {i : Installed} {now : Frame} {e c : Int} {anchor : Bool} {msg : Message} {t : Tracker}

/-- A Capture and a Correction are taken alike (R123). -/
theorem Tracker.takeMessage_corrects (hm : msg = .capture e anchor ∨ msg = .correction e anchor) :
    t.takeMessage i now msg = t.takeCorrection i now e anchor := by
  rcases hm with rfl | rfl <;> rfl

/-- The tempo after a rate correction, by the clamps of R122. -/
theorem correctedTempo_eq (i : Installed) (tempo : Nat) (e : Int) : (correctedTempo i tempo e : Int) =
    max (i.tmin : Int) (min i.tmax (tempo
      + max (-(i.maxTempoStep : Int)) (min i.maxTempoStep ((e * i.rateGain).tdiv 64)))) :=
  Int.toNat_of_nonneg (le_max_of_le_left (Int.natCast_nonneg i.tmin))

/-- In LEADING, FOLLOWING and COASTING both corrections are made (R123). -/
theorem Tracker.takeMessage_advancing (ht : t.state = .leading ∨ t.state = .following ∨ t.state = .coasting)
    (hm : msg = .capture e anchor ∨ msg = .correction e anchor) :
    t.takeMessage i now msg = t.correct i now e anchor t.captureChange := by
  rw [Tracker.takeMessage_corrects hm]
  unfold Tracker.takeCorrection Tracker.captureChange
  rcases ht with ht | ht | ht <;> rw [ht] <;> rfl

/-- In WAITING the rate correction alone is made (R123). -/
theorem Tracker.takeMessage_waiting (ht : t.state = .waiting)
    (hm : msg = .capture e anchor ∨ msg = .correction e anchor) : t.takeMessage i now msg =
      TrackerResult.plain { t with tempo := correctedTempo i t.tempo e, returnState := some .following } := by
  rw [Tracker.takeMessage_corrects hm]
  unfold Tracker.takeCorrection
  conv_lhs => rw [ht]
  rfl

/-- A positive phase correction moves the position to where it lands (R121). -/
theorem Tracker.correct_jump {l : Landing} (first : List (TrackerState × StateCause))
    (hc : c = if anchor then e else (e * i.phaseGain).tdiv 16) (hpos : 0 < c)
    (hl : t.landing (t.position + c.toNat * 65536) = l) : t.correct i now e anchor first =
      { tracker := { t.land now l with tempo := correctedTempo i t.tempo e }, reports := t.rangeReports l,
        changes := first ++ l.changes } := by
  subst hc hl
  unfold Tracker.correct Tracker.phaseCorrect Tracker.rateCorrect
  dsimp only
  rw [if_pos (by exact hpos)]
  dsimp only
  rw [Tracker.land_tempo]
  rfl

/-- A phase correction that is not positive goes into the lag credit (R119, R121). -/
theorem Tracker.correct_credit (first : List (TrackerState × StateCause))
    (hc : c = if anchor then e else (e * i.phaseGain).tdiv 16) (hneg : c ≤ 0) : t.correct i now e anchor first =
      { tracker := { t with
          lag := min (1023 * 65536) (t.lag + (-c).toNat * 65536), tempo := correctedTempo i t.tempo e },
        reports := [], changes := first } := by
  subst hc
  unfold Tracker.correct Tracker.phaseCorrect
  dsimp only
  rw [if_neg (by exact Int.not_lt.2 hneg)]
  simp only [TrackerResult.plain, List.append_nil]
  rfl
end

/-! ### Wait end, Loss and Wait expired (R123, R126, R127) -/

section
variable (i : Installed) (now : Frame) {t : Tracker}

/-- A Wait end in WAITING moves the position by the catch-up to where it lands (R126). -/
theorem Tracker.takeMessage_catchUp (fused : Frame) {l : Landing} {p : Nat} (ht : t.state = .waiting)
    (hp : p = t.position + (now - fused).toNat * t.tempo * 2048 / 125) (hl : t.landing p = l) :
    t.takeMessage i now (.waitEnd fused) =
      { tracker := ({ t with lag := 0 } : Tracker).land now l, reports := t.rangeReports l,
        changes := (.following, .waitEnd) :: l.changes } := by
  subst hp hl
  show t.takeWaitEnd now fused = _
  unfold Tracker.takeWaitEnd
  conv_lhs => rw [ht]
  rfl

/-- A Wait end outside WAITING makes no catch-up (R123). -/
theorem Tracker.takeMessage_lateWaitEnd (fused : Frame) (ht : t.state = .leading ∨ t.state = .coasting) :
    t.takeMessage i now (.waitEnd fused) = { tracker := t, reports := [], changes := [(.following, .waitEnd)] } := by
  show t.takeWaitEnd now fused = _
  unfold Tracker.takeWaitEnd
  rcases ht with ht | ht <;> rw [ht]

theorem Tracker.takeMessage_waitEnd_following (fused : Frame) (ht : t.state = .following) :
    t.takeMessage i now (.waitEnd fused) = TrackerResult.plain t := by
  show t.takeWaitEnd now fused = _
  unfold Tracker.takeWaitEnd
  rw [ht]

theorem Tracker.takeMessage_loss : t.takeMessage i now .loss =
    if t.state = .following then { tracker := t, reports := [], changes := [(.coasting, .loss)] }
    else if t.state = .waiting then TrackerResult.plain { t with returnState := some .coasting }
    else TrackerResult.plain t := by
  show t.takeLoss = _
  unfold Tracker.takeLoss
  cases t.state <;> rfl

theorem Tracker.takeMessage_expired : t.takeMessage i now .waitExpired =
    if t.state = .following ∨ t.state = .coasting then
      { tracker := t, reports := [], changes := [(.leading, .waitExpired)] }
    else if t.state = .waiting then { tracker := t, reports := [], changes := (.leading, .waitExpired) :: t.waitCheck }
    else TrackerResult.plain t := by
  show t.takeWaitExpired = _
  unfold Tracker.takeWaitExpired
  cases t.state <;> rfl
end

end Sys2Proof.Machine

open Sys2Proof Sys2Proof.Machine

/-- Settles O38: the corrections and the catch-up by their landing, the other messages by the tracker state. -/
theorem messagesAtTheTracker : Obligations.MessagesAtTheTracker := by
  intro i now t
  refine ⟨fun e anchor _ ht msg hm => ?_, fun e anchor c msg ht hm hc => ⟨fun hpos hw hr => ?_, fun hneg => ?_⟩,
    fun e anchor msg ht hm => ?_,
    fun e anchor c p w msg r ht hm hc hpos hp hr => ⟨fun hw hle hge => ?_, fun hw hrange => ?_⟩, rfl,
    fun ht => ?_, fun ht => ?_, fun ht => ?_, fun ht => ?_, fun ht => ?_, fun ht => ?_,
    fun fused p w r ht hp hr => ⟨fun hw hle hge => ?_, fun hw hrange => ?_⟩, fun fused p ht hp hw hr => ?_,
    fun fused ht => Tracker.takeMessage_lateWaitEnd i now fused ht,
    fun fused ht => Tracker.takeMessage_waitEnd_following i now fused ht, fun msg ht => ?_⟩
  · have running : t.state.running = true := by rcases ht with ht | ht | ht | ht <;> rw [ht] <;> rfl
    rw [Tracker.takeMessage_corrects hm, Tracker.takeCorrection_tempo i now e anchor running]
    exact correctedTempo_eq i t.tempo e
  · rw [Tracker.takeMessage_advancing ht hm, Tracker.correct_jump _ hc hpos (Tracker.landing_free hw hr),
      Tracker.land_free]
    exact ⟨rfl, rfl, rfl, rfl, List.append_nil _⟩
  · rw [Tracker.takeMessage_advancing ht hm, Tracker.correct_credit _ hc hneg]
    exact ⟨rfl, rfl, rfl, rfl, rfl⟩
  · rw [Tracker.takeMessage_waiting ht hm]
    exact ⟨rfl, rfl, rfl⟩
  · subst hr hp
    rw [Tracker.takeMessage_advancing ht hm, Tracker.correct_jump _ hc hpos (Tracker.landing_wait hw hle hge),
      Tracker.land_wait]
    exact ⟨rfl, rfl, rfl⟩
  · subst hr hp
    rw [Tracker.takeMessage_advancing ht hm, Tracker.correct_jump _ hc hpos (Tracker.landing_saturated hw hrange),
      Tracker.land_saturated]
    exact ⟨rfl, rfl, rfl⟩
  · rw [Tracker.takeMessage_loss, if_pos ht]
  · rw [Tracker.takeMessage_loss, ht]
    rfl
  · rw [Tracker.takeMessage_loss]
    rcases ht with ht | ht <;> rw [ht] <;> rfl
  · rw [Tracker.takeMessage_expired, if_pos ht]
  · rw [Tracker.takeMessage_expired, ht]
    rfl
  · rw [Tracker.takeMessage_expired, ht, Tracker.waitCheck, Tracker.onWaitStamp_eq]
    rfl
  · rw [hr, Tracker.takeMessage_catchUp i now fused ht hp (Tracker.landing_wait hw hle hge), Tracker.land_wait]
    rfl
  · rw [hr, Tracker.takeMessage_catchUp i now fused ht hp (Tracker.landing_saturated hw hrange),
      Tracker.land_saturated]
    rfl
  · rw [Tracker.takeMessage_waitEnd i now fused ht hp hw hr]
    exact ⟨rfl, rfl, rfl⟩
  · have outside : t.state.running = false := by rcases ht with ht | ht | ht | ht <;> rw [ht] <;> rfl
    exact Tracker.takeMessage_outside i now msg outside
end

section
/-! The frame advance of the tracker by where it lands, and the FRAME_START that makes it, in each order of the blocks
(R117, R118, R120, R125, R131, R132; log entry 10). -/

namespace Sys2Proof.Machine

/-! ### The advance (R117, R118) -/

/-- In an advancing state the position moves by what the lag credit leaves of the advance, to where it lands (R118). -/
theorem Tracker.frameStart_lands {t : Tracker} {q : Nat} {l : Landing} (now : Frame) (ha : t.state.advancing = true)
    (hq : q = (t.tempo * 2048 + t.remainder) / 125) (hl : t.landing (t.position + (q - t.lag)) = l) :
    t.frameStart now =
      { tracker := ({ t with
          remainder := (t.tempo * 2048 + t.remainder) % 125, lag := t.lag - q } : Tracker).land now l,
        reports := t.rangeReports l, changes := l.changes } := by
  subst hq hl
  exact Tracker.frameStart_advancing now ha

/-! ### What a landing leaves at the blocks -/

/-- State x is state u but for the run controller, the wait timer and what the report writer and the port go by. -/
structure State.SameButSamples (u x : State) : Prop where
  tracker   : x.tracker = u.tracker
  announced : x.matcher.announced = u.matcher.announced
  cues      : x.matcher.cues = u.matcher.cues
  capture   : x.matcher.capture = u.matcher.capture
  miss      : x.matcher.miss = u.matcher.miss
  lag       : x.matcher.lag = u.matcher.lag
  raised    : x.raised = u.raised
  chest     : x.chest = u.chest
  fuser     : x.fuser = u.fuser
  release   : x.release = u.release
  mem       : x.mem = u.mem
  link      : x.link = u.link
  installed : x.loader.installed = u.loader.installed

section
variable {u x : State}

/-- The samples of a frame start that brings nothing at the run controller (R141, R145). -/
theorem State.SameButSamples.runFrame {w : Bool} (h : u.SameButSamples x) (hq : x.run.Quiet w) :
    u.SameButSamples (x.runFrame false w) := by
  rw [State.runFrame_quiet hq]
  exact ⟨h.tracker, h.announced, h.cues, h.capture, h.miss, h.lag, h.raised, h.chest, h.fuser, h.release, h.mem, h.link,
    h.installed⟩

/-- A matcher that finds no cue missed leaves at most its wait timer changed (R103, R110). -/
theorem State.SameButSamples.matcherFrame {i : Installed} {n trail : Nat} (h : u.SameButSamples x) (ht : u.Tests i n trail)
    (hq : ∀ e ∈ u.matcher.cues, trail ≤ e.stamp + e.w) :
    u.SameButSamples x.matcherFrame ∧ x.matcherFrame.run = x.run := by
  have tests : x.Tests i n trail :=
    ⟨h.installed.trans ht.installed, h.announced ▸ ht.running, h.lag.trans ht.lag, ht.least, ht.most,
      by rw [h.tracker, h.link]; exact ht.trailAt⟩
  have counts : (x.matcher.tick i.waitLimit).capture = x.matcher.capture := by
    unfold Matcher.tick
    split
    · split <;> rfl
    · rfl
  obtain ⟨hcues, hann, hmiss, hlag⟩ := x.matcher.tick_keeps i.waitLimit
  rw [tests.unmissed (h.cues ▸ hq)]
  exact ⟨⟨h.tracker, hann.trans h.announced, hcues.trans h.cues, counts.trans h.capture, hmiss.trans h.miss,
    hlag.trans h.lag, h.raised, h.chest, h.fuser, h.release, h.mem, h.link, h.installed⟩, rfl⟩

/-- A landing of the tracker's advance shows in each order of the blocks alike, where the matcher misses no cue and the
samples bring nothing (log entry 10). -/
theorem State.frameBlocks_landed {s : State} {w : Bool} (o : FrameOrder) (hq : s.run.Quiet w)
    (still : ∀ r, State.matcherFrame { s with run := r } = { s with run := r })
    (lands : ∀ r, u.SameButSamples (State.trackerFrame { s with run := r })) (quiet : s.trackerFrame.run.Quiet w)
    (tests : ∀ x : State, u.SameButSamples x → u.SameButSamples x.matcherFrame ∧ x.matcherFrame.run = x.run) :
    u.SameButSamples (s.frameBlocks false w o) := by
  have sampled : s.runFrame false w = { s with run := s.run.sampled false w } := State.runFrame_quiet hq
  cases o with
  | tmr =>
    obtain ⟨same, run⟩ := tests _ (lands s.run)
    exact same.runFrame (run ▸ quiet)
  | trm => exact (tests _ ((lands s.run).runFrame quiet)).1
  | mtr =>
    rw [State.frameBlocks, still s.run]
    exact (lands s.run).runFrame quiet
  | mrt =>
    rw [State.frameBlocks, still s.run]
    exact sampled ▸ lands _
  | rtm =>
    rw [State.frameBlocks, sampled]
    exact (tests _ (lands _)).1
  | rmt =>
    rw [State.frameBlocks, sampled, still]
    exact lands _
end

/-! ### A FRAME_START that makes the advance -/

theorem State.frameQuiet.quiet {s : State} {w : Bool} (h : s.frameQuiet w) : s.nothingDue ∧ s.run.Quiet w := h

/-- An advancing tracker at a frame start that finds no cue missed and brings nothing at the run controller: q is the
advance. -/
structure State.Advances (w : Bool) (i : Installed) (n q : Nat) (s : State) : Prop where
  quiet     : s.frameQuiet w
  installed : s.loader.installed = some i
  advancing : s.tracker.state.advancing = true
  announced : s.matcher.announced = s.tracker.state
  tests     : s.nextFrame.Tests i n (s.nextExpiryTrail n)
  unmissed  : ∀ e ∈ s.matcher.cues, s.nextExpiryTrail n ≤ e.stamp + e.w
  units     : q = (s.tracker.tempo * 2048 + s.tracker.remainder) / 125

section
variable {w : Bool} {i : Installed} {n q : Nat} {s : State}

theorem TrackerState.advancing_ne {st : TrackerState} (h : st.advancing = true) : st ≠ .waiting ∧ st ≠ .winding := by
  cases st <;> simp [TrackerState.advancing] at h ⊢

/-- The matcher finds no cue missed, and its wait timer does not run. -/
theorem State.Advances.still (h : s.Advances w i n q) (r : RunControl) :
    State.matcherFrame { s.nextFrame with run := r } = { s.nextFrame with run := r } := by
  have waits : s.matcher.announced ≠ .waiting := h.announced ▸ (TrackerState.advancing_ne h.advancing).1
  rw [(h.tests.sampled r).unmissed h.unmissed]
  show ({ s.nextFrame with matcher := s.matcher.tick i.waitLimit, run := r } : State) = _
  rw [Matcher.tick_still _ waits]
  rfl

/-- The tracker's part is its advance (R118). -/
theorem State.Advances.trackerFrame (h : s.Advances w i n q) {l : Landing}
    (hl : s.tracker.landing (s.tracker.position + (q - s.tracker.lag)) = l) (r : RunControl) :
    State.trackerFrame { s.nextFrame with run := r } =
      State.applyTracker
        { tracker := ({ s.tracker with
            remainder := (s.tracker.tempo * 2048 + s.tracker.remainder) % 125,
            lag := s.tracker.lag - q } : Tracker).land (s.link.frame + 1) l,
          reports := s.tracker.rangeReports l, changes := l.changes }
        { s.nextFrame with run := r } :=
  congrArg (fun x => State.applyTracker x { s.nextFrame with run := r })
    (Tracker.frameStart_lands (s.link.frame + 1) h.advancing h.units hl)

/-- A frame start with a landing, by what the tracker's part leaves. -/
theorem State.Advances.landed (h : s.Advances w i n q) (o : FrameOrder) {u : State}
    (lands : ∀ r, u.SameButSamples (State.trackerFrame { s.nextFrame with run := r }))
    (quiet : s.nextFrame.trackerFrame.run.Quiet w)
    (tests : ∀ x : State, u.SameButSamples x → u.SameButSamples x.matcherFrame ∧ x.matcherFrame.run = x.run) :
    ∃ t, exec (.frameStart false w o) s = .next t ∧ u.SameButSamples t := by
  obtain ⟨due, samples⟩ := h.quiet.quiet
  obtain ⟨-, -, -, -, -, hwait⟩ := id due
  have same := State.frameBlocks_landed o (s := s.nextFrame) samples h.still lands quiet tests
  obtain ⟨t, hexec, -, ⟨⟨_, _, _, rfl⟩, -⟩, -⟩ := pumped (exec_frameStart_quiet false w o due) rfl
    ((State.frameBlocks_waiting false w o s.nextFrame).trans hwait)
  exact ⟨_, hexec, same.tracker, same.announced, same.cues, same.capture, same.miss, same.lag, same.raised, same.chest,
    same.fuser, same.release, same.mem, same.link, same.installed⟩

/-- A free advance is the whole change of the tracker (R118). -/
theorem State.Advances.free (h : s.Advances w i n q) (o : FrameOrder) {p : Nat}
    (hl : s.tracker.landing (s.tracker.position + (q - s.tracker.lag)) = .free p) :
    ∃ t, exec (.frameStart false w o) s = .next t
      ∧ t.tracker = { s.tracker with
          position := p, lag := s.tracker.lag - q,
          remainder := (s.tracker.tempo * 2048 + s.tracker.remainder) % 125,
          trail := s.tracker.trail.set ((s.link.frame + 1).toNat % 512) (p / 65536) }
      ∧ t.matcher = s.matcher ∧ t.raised = s.raised ∧ t.link = { s.link with frame := s.link.frame + 1 }
      ∧ t.release = s.release ∧ t.chest = s.chest ∧ t.fuser = s.fuser ∧ t.mem = s.mem := by
  obtain ⟨due, samples⟩ := h.quiet.quiet
  obtain ⟨-, -, -, -, -, hwait⟩ := id due
  have advance := Tracker.frameStart_lands (s.link.frame + 1) h.advancing h.units hl
  have waits : s.matcher.announced ≠ .waiting := h.announced ▸ (TrackerState.advancing_ne h.advancing).1
  have sampled : ∀ x : State, x.run = s.run → x.loader = s.loader →
      x.runFrame false w = { x with run := s.run.sampled false w } := by
    intro x hx _
    rw [State.runFrame_quiet (hx ▸ samples), hx]
  obtain ⟨t, hexec, -, ⟨⟨_, _, _, rfl⟩, -⟩, -⟩ := pumped (exec_frameStart_quiet false w o due)
    (State.frameBlocks_unmissed (s := s.nextFrame) o (congrArg TrackerResult.changes advance) sampled h.tests h.unmissed)
    hwait
  exact ⟨_, hexec, congrArg TrackerResult.tracker advance, Matcher.tick_still _ waits, rfl, rfl, rfl, rfl, rfl, rfl⟩

/-! ### The landings that change the state (R118, R125, R131, R132) -/

/-- The state after the advance to the wait stamp x, but for what `State.SameButSamples` leaves open (R118, R125). -/
def State.waitReached (x : Nat) (s : State) : State :=
  { s with
    tracker := { s.tracker with
      state := .waiting, returnState := some s.tracker.state, position := x * 65536, lag := 0,
      remainder := (s.tracker.tempo * 2048 + s.tracker.remainder) % 125,
      trail := s.tracker.trail.set ((s.link.frame + 1).toNat % 512) x },
    matcher := { s.matcher with announced := .waiting },
    fuser := { s.fuser with running := true },
    link := { s.link with frame := s.link.frame + 1 },
    raised := s.raised ++
      [{ block := .tracker,
         record := { report := .state s.tracker.state .waiting .waitReached, frame := s.link.frame + 1,
                     position := x } }] }

/-- The state after an advance by q that saturates, but for what `State.SameButSamples` leaves open (R131, R132). -/
def State.rangeReached (q : Nat) (s : State) : State :=
  { s with
    tracker := { s.tracker with
      state := .halted, resume := false, awaitingClear := false,
      position := 2147483647 * 65536 + 65535, lag := s.tracker.lag - q,
      remainder := (s.tracker.tempo * 2048 + s.tracker.remainder) % 125,
      trail := s.tracker.trail.set ((s.link.frame + 1).toNat % 512) 2147483647 },
    matcher := { s.matcher with announced := .halted },
    fuser := { window := none, running := false },
    chest := s.chest.requestSweep .mute Divisions.all,
    link := { s.link with frame := s.link.frame + 1 },
    raised := s.raised ++
      [{ block := .tracker,
         record := { report := .rangeEnd (s.tracker.position / 65536) s.tracker.tempo,
                     frame := s.link.frame + 1, position := 2147483647 } },
       { block := .tracker,
         record := { report := .state s.tracker.state .halted .rangeEnd, frame := s.link.frame + 1,
                     position := 2147483647 } }] }

theorem Matcher.announce_waiting (old : TrackerState) (m : Matcher) : m.announce old .waiting =
    { m with announced := .waiting, expiryDue := false, timer := 0, timerStopped := false } := by
  simp [Matcher.announce]

/-- A landing on the wait stamp, as the tracker's part alone (R118, R125). -/
theorem State.Advances.trackerFrame_wait (h : s.Advances w i n q) {x : Nat}
    (hl : s.tracker.landing (s.tracker.position + (q - s.tracker.lag)) = .wait (x * 65536)) (r : RunControl) :
    (s.waitReached x).SameButSamples (State.trackerFrame { s.nextFrame with run := r })
      ∧ (State.trackerFrame { s.nextFrame with run := r }).run = { r with announced := .waiting } := by
  have whole : x * 65536 / Config.unitsPerSu = x := Nat.mul_div_cancel x (by decide)
  rw [h.trackerFrame hl r, State.applyTracker_silent rfl, Tracker.land_wait]
  simp only [Landing.changes, State.changeAll]
  rw [State.changeState_running (i := i) (by exact h.installed) rfl (by exact (TrackerState.advancing_ne h.advancing).2),
    Matcher.announce_waiting]
  simp only [State.reported, Tracker.integer, whole]
  exact ⟨⟨rfl, rfl, rfl, rfl, rfl, rfl, rfl, rfl, rfl, rfl, rfl, rfl, rfl⟩, trivial⟩

/-- A saturation, as the tracker's part alone (R131, R132). -/
theorem State.Advances.trackerFrame_saturated (h : s.Advances w i n q)
    (hl : s.tracker.landing (s.tracker.position + (q - s.tracker.lag)) = .saturated) (r : RunControl) :
    (s.rangeReached q).SameButSamples (State.trackerFrame { s.nextFrame with run := r })
      ∧ (State.trackerFrame { s.nextFrame with run := r }).run = { r.endWinding with announced := .halted } := by
  have whole : (2147483647 * 65536 + 65535) / Config.unitsPerSu = 2147483647 := by decide
  rw [h.trackerFrame hl r, Tracker.land_saturated, State.applyTracker,
    State.raiseAll_installed (i := i) _ _ (by exact h.installed)]
  simp only [Tracker.rangeReports, Landing.changes, State.changeAll, List.map_cons, List.map_nil, State.reported,
    Tracker.integer, whole]
  generalize hx : State.mk _ _ _ _ _ _ _ _ _ _ _ _ _ _ _ = x
  obtain ⟨port, halted⟩ := State.changeState_halted (s := x) (by subst hx; exact h.installed) .rangeEnd
  subst hx
  rw [halted]
  simp only [State.reported, Tracker.integer, whole, List.append_assoc]
  exact ⟨⟨rfl, rfl, rfl, rfl, rfl, rfl, rfl, rfl, rfl, rfl, rfl, rfl, rfl⟩, trivial⟩

/-- A landing on the wait stamp enters WAITING (R118, R125). -/
theorem State.Advances.waits (h : s.Advances w i n q) (o : FrameOrder) {x : Nat}
    (hl : s.tracker.landing (s.tracker.position + (q - s.tracker.lag)) = .wait (x * 65536)) :
    ∃ t, exec (.frameStart false w o) s = .next t ∧ (s.waitReached x).SameButSamples t := by
  obtain ⟨-, hc, -, hwind, hlim, hhold⟩ := h.quiet.quiet
  have tests : (s.waitReached x).Tests i n (s.nextExpiryTrail n) :=
    ⟨h.installed, rfl, h.tests.lag, h.tests.least, h.tests.most,
      (Tracker.trailAt_earlier rfl h.tests.least h.tests.most).trans h.tests.trailAt⟩
  refine h.landed o (fun r => (h.trackerFrame_wait hl r).1) ?_ fun y hy => hy.matcherFrame tests h.unmissed
  rw [show s.nextFrame.trackerFrame.run = _ from (h.trackerFrame_wait hl s.run).2]
  exact ⟨hc, nofun, hwind, hlim, hhold⟩

theorem RunControl.endWinding_confirmed {r : RunControl} (h : r.endWinding.wind = .confirmed) : r.wind = .confirmed := by
  simp only [RunControl.endWinding] at h
  split at h
  · cases h
  · exact h

/-- A saturation raises RANGE_END and enters HALTED (R131, R132). -/
theorem State.Advances.saturates (h : s.Advances w i n q) (o : FrameOrder)
    (hl : s.tracker.landing (s.tracker.position + (q - s.tracker.lag)) = .saturated) :
    ∃ t, exec (.frameStart false w o) s = .next t ∧ (s.rangeReached q).SameButSamples t := by
  obtain ⟨-, hc, -, hwind, -, hhold⟩ := h.quiet.quiet
  refine h.landed o (fun r => (h.trackerFrame_saturated hl r).1) ?_ fun y hy => ?_
  · rw [show s.nextFrame.trackerFrame.run = _ from (h.trackerFrame_saturated hl s.run).2]
    exact ⟨hc, nofun, fun confirmed => hwind (RunControl.endWinding_confirmed confirmed), rfl, hhold⟩
  · rw [State.matcherFrame_still (by rw [hy.announced]; rfl)]
    exact ⟨hy, rfl⟩
end

end Sys2Proof.Machine

open Sys2Proof Sys2Proof.Machine

/-- Settles O37: the advance by its landing at the tracker, and what each landing brings to the blocks. -/
theorem frameAdvance : Obligations.FrameAdvance := by
  refine ⟨fun now t q p ha hq hp hw => ?_, fun w o i n q p now s hquiet hi ha hann hlag h3 h288 hnow hcues _ hle hq hp => ?_⟩
  · have lands {l : Landing} (hl : t.landing p = l) := Tracker.frameStart_lands now ha hq (hp ▸ hl)
    obtain ⟨x, hx⟩ := Tracker.land_writes now
      { t with remainder := (t.tempo * 2048 + t.remainder) % 125, lag := t.lag - q } (t.landing p)
    refine ⟨?_, ?_, ?_, ?_, fun x hx hge => ?_, fun hfree hr => ?_, fun hfree hr => ?_⟩
    iterate 4 rw [lands rfl, hx]
    · rw [lands (Tracker.landing_wait hx (hw x hx) hge)]
      exact ⟨rfl, rfl⟩
    · rw [lands (Tracker.landing_free hfree hr)]
      exact ⟨rfl, rfl, rfl⟩
    · rw [lands (Tracker.landing_saturated hfree hr), Tracker.land_saturated]
      exact ⟨rfl, rfl, rfl⟩
  · subst hp hnow
    have running : s.matcher.announced.running = true := hann ▸ TrackerState.advancing_running ha
    have advances : s.Advances w i n q :=
      ⟨hquiet, hi, ha, hann, State.tests_nextFrame hi running hlag h3 h288, hcues, hq⟩
    refine ⟨fun hfree hr => advances.free o (Tracker.landing_free hfree hr), fun x hx hge => ?_, fun hfree hr => ?_⟩
    · obtain ⟨t, hexec, same⟩ := advances.waits o (Tracker.landing_wait hx (hle x hx) hge)
      have window : t.fuser.window = s.fuser.window := by rw [same.fuser]; rfl
      exact ⟨t, hexec, same.tracker, same.announced, same.cues, same.capture, same.miss, same.raised, same.release,
        same.chest, window, same.mem⟩
    · obtain ⟨t, hexec, same⟩ := advances.saturates o (Tracker.landing_saturated hfree hr)
      exact ⟨t, hexec, same.tracker, same.announced, same.cues, same.fuser, same.chest, same.raised, same.release,
        same.mem⟩
end

section
/-! The run controller behind its CANCEL test, the CANCEL rows and the end of a hold (R141, R142, R144, R145; log entry
28). -/

namespace Sys2Proof.Machine

/-! ### The frame event behind the CANCEL test (R144 to R148) -/

/-- With no ready report due, what is left of the frame event behind the CANCEL test is the run controller's alone. -/
theorem State.runAfterCancel_alone {s : State} (hready : s.run.drops = false → s.run.readyDue = false) :
    s.runAfterCancel = { s with run := s.run.frameStep s.windSettings } := by
  have settings : ∀ x, State.windSettings { s with run := x } = s.windSettings := fun _ => rfl
  unfold State.runAfterCancel RunControl.frameStep
  cases hdrop : s.run.drops with
  | true => rfl
  | false =>
    have silent : ((s.run.settleStep s.windSettings.1).limitStep s.windSettings.2).readyDue = false := by
      rw [RunControl.readyDue_limitStep, RunControl.readyDue_settleStep]
      exact hready hdrop
    unfold State.runAfterDrop State.runAfterSettle State.reportReady RunControl.counted
    simp only [settings, silent, Bool.false_eq_true, if_false]
    split
    · rfl
    · split <;> rfl

/-- Outside WINDING no settle runs: the frame event comes to its next stage, or the two timers take their steps (R144, R147,
R148). -/
theorem RunControl.frameStep_outside {r : RunControl} (settings : Nat × Nat) (h : r.announced ≠ .winding) :
    ∃ x m n, r.frameStep settings = { r with stage := x, limit := m, hold := n } := by
  unfold RunControl.frameStep RunControl.counted
  rw [RunControl.settleStep_still _ (.inl h)]
  split
  · exact ⟨_, _, _, rfl⟩
  split
  · exact ⟨_, _, _, rfl⟩
  have limited : ∃ x m, r.limitStep settings.2 = { r with stage := x, limit := m } := by
    unfold RunControl.limitStep
    split
    · split <;> exact ⟨_, _, rfl⟩
    · exact ⟨_, _, rfl⟩
  obtain ⟨x, m, hl⟩ := limited
  rw [hl]
  split
  · exact ⟨_, _, _, rfl⟩
  · unfold RunControl.holdStep
    split
    · split <;> exact ⟨_, _, _, rfl⟩
    · exact ⟨_, _, _, rfl⟩

theorem State.runAfterCancel_outside {s : State} (h : s.run.announced ≠ .winding) :
    ∃ x m n, s.runAfterCancel = { s with run := { s.run with stage := x, limit := m, hold := n } } := by
  obtain ⟨x, m, n, step⟩ := RunControl.frameStep_outside s.windSettings h
  have silent : s.run.readyDue = false := by simp [RunControl.readyDue, h]
  exact ⟨x, m, n, (State.runAfterCancel_alone fun _ => silent).trans (by rw [step])⟩

/-! ### The CANCEL sampler and CANCEL_RELEASE (R141) -/

/-- What the two last samples of CANCEL come to, by the held flag (R141). -/
theorem RunControl.sample_stage (cancel windok : Bool) (r : RunControl) :
    ((r.sample cancel windok).stage = .cancelAssert ↔
        r.cancelHeld = false ∧ cancel = true ∧ r.cancelPrev = some true)
      ∧ ((r.sample cancel windok).stage = .cancelRelease ↔
        r.cancelHeld = true ∧ cancel = false ∧ r.cancelPrev = some false) := by
  cases held : r.cancelHeld with
  | false =>
    have asserts : (r.sample cancel windok).stage =
        if cancel = true ∧ r.cancelPrev = some true then .cancelAssert else .done := by
      simp [RunControl.sample, held]
    rw [asserts]
    split <;> simp [*]
  | true =>
    have releases : (r.sample cancel windok).stage =
        if cancel = false ∧ r.cancelPrev = some false then .cancelRelease else .done := by
      simp [RunControl.sample, held]
    rw [releases]
    split <;> simp [*]

/-- The stage row takes its stage (log entry 28). -/
theorem exec_cancelRelease {s : State} (h : s.run.stage = .cancelRelease) :
    exec .cancelRelease s = .next s.runCancelRelease.pump :=
  if_pos h

theorem exec_holdExpiry {s : State} (h : s.run.stage = .hold) : exec .holdExpiry s = .next s.runHold :=
  if_pos h

/-- With the wind not requested and no timer running nothing follows the release of CANCEL (R141). -/
theorem State.runCancelRelease_quiet {s : State} (ha : s.run.announced ≠ .winding) (hw : s.run.wind = .unrequested)
    (hl : s.run.limitRunning = false) (hh : s.run.holdRunning = false) :
    s.runCancelRelease = { s with run := { s.run with cancelHeld := false, stage := .done } } := by
  have stays : ({ s.run with cancelHeld := false, stage := .done } : RunControl).drops = false := by
    simp [RunControl.drops, hw]
  have silent : ({ s.run with cancelHeld := false, stage := .done } : RunControl).readyDue = false :=
    RunControl.readyDue_unconfirmed (by simp [hw])
  refine (State.runAfterCancel_alone (s := { s with run := { s.run with cancelHeld := false, stage := .done } })
    fun _ => silent).trans ?_
  exact congrArg (fun r => { s with run := r }) (RunControl.frameStep_quiet _ stays ha hl hh rfl)

end Sys2Proof.Machine

open Sys2Proof Sys2Proof.Machine

/-- Settles O47: the sampler by the held flag and the two samples, the release with nothing behind it, and the fall of
WINDREQ. -/
theorem cancelSampledAndReleased : Obligations.CancelSampledAndReleased := by
  intro s
  refine ⟨fun c w => ⟨rfl, rfl, s.run.sample_stage c w⟩, fun hwait hstage ha hw hl hh => ?_, exec_holdExpiry⟩
  exact pumped (exec_cancelRelease hstage) (State.runCancelRelease_quiet (by simp [ha]) hw hl hh) hwait
end

section
/-! Entry into STOPPING with the port in use, and the row CANCEL_ASSERT (R115, R133, R141, R142). -/

namespace Sys2Proof.Machine

/-! ### The entry into STOPPING (R133) -/

/-- The teardown, and the write it removes from the FIFO while it is on the port (R18, R34, R47, R51, R112, R133). -/
theorem State.teardown_eq (s : State) : s.teardown =
    { s with
      tracker := { s.tracker with waitStamp := none },
      admission :=
        { slots := [], list := [], fetch := none, nextOrder := 0,
          request := s.admission.request.map (fun r => { r with discard := true }) },
      release := { hold := [], starved := false },
      matcher := { s.matcher with cues := [], capture := 0, miss := 0, timer := 0 },
      chest := s.chest.requestSweep .off Divisions.all,
      path := { s.path with port := abandonChestWrite false s.discardFetch.path.port } } := rfl

/-- The word on the port aside, the entry into STOPPING does what it does with the port free (R115, R133). -/
theorem State.changeState_stopping_anyPort {s : State} {i : Installed} (cause : StateCause)
    (hi : s.loader.installed = some i) : ∃ port, s.changeState .stopping cause =
    { s with
      tracker := { s.tracker with
        state := .stopping, returnState := none, resume := false, awaitingClear := false, waitStamp := none },
      admission :=
        { slots := [], list := [], fetch := none, nextOrder := 0,
          request := s.admission.request.map (fun r => { r with discard := true }) },
      release := { hold := [], starved := false },
      matcher := { s.matcher with
        cues := [], capture := 0, miss := 0, timer := 0, announced := .stopping, expiryDue := false },
      fuser := { window := none, running := false },
      chest := s.chest.requestSweep .off Divisions.all,
      run := { s.run with
        announced := .stopping, windReq := true, limitRunning := false, settle := 0, holdRunning := false,
        wind := if s.run.windReq = true ∧ s.run.wind ≠ .settling then s.run.wind else .unconfirmed },
      loader := { s.loader with announced := .stopping },
      report := { s.report with refreshDue := true },
      path := { s.path with port := port },
      raised := s.raised ++ [s.reported .tracker (.state s.tracker.state .stopping cause)] } := by
  refine ⟨abandonChestWrite false s.discardFetch.path.port, ?_⟩
  show (s.announce .stopping cause).teardown = _
  rw [State.teardown_eq, State.announce_installed _ _ hi, RunControl.announce_stopping,
    Matcher.announce_stopping]
  rfl

/-- With the admission list empty no fetch begins and no read of one is requested (R6). -/
theorem State.postFetch_beginFetch_unlisted {s : State} (h : s.admission.list = []) : s.beginFetch.postFetch = s := by
  have unbegun : s.beginFetch = s := by
    unfold State.beginFetch
    rw [h]
  rw [unbegun]
  unfold State.postFetch
  rw [h]
  split
  · next h => cases h
  · rfl

theorem State.grant_fetch (a : PortAccess) (s : State) : (s.grant a).admission.fetch = s.admission.fetch := by
  cases a <;> rfl

/-- What follows an event that leaves the admission list empty begins no fetch (R6). -/
theorem State.pump_fetch_unlisted {s : State} (hw : s.path.waiting = none) (h : s.admission.list = []) :
    s.pump.admission.fetch = s.admission.fetch := by
  show s.beginFetch.postFetch.arbitrate.admission.fetch = _
  rw [State.postFetch_beginFetch_unlisted h]
  unfold State.arbitrate State.grantPart
  rw [hw, State.countYield_idle s hw]
  split
  · rfl
  · dsimp only
    split
    · rfl
    · rfl
    · exact s.grant_fetch _

/-! ### The effect of an assertion (R142) -/

/-- CANCEL is held (R141). -/
def State.cancelSeen (s : State) : State := { s with run := { s.run with stage := .done, cancelHeld := true } }

theorem State.runCancelAssert_eq (s : State) : s.runCancelAssert = s.cancelSeen.cancelEffect.runAfterCancel := rfl

theorem State.cancelEffect_uninstalled {s : State} (h : s.loader.installed = none) : s.cancelEffect = s := by
  simp [State.cancelEffect, h]

/-- COMMAND is raised, and the OFF sweep restarts (R142, R144). -/
theorem State.cancelEffect_restarts {s : State} {i : Installed} (hi : s.loader.installed = some i)
    (ha : s.run.announced = .stopping) : ∃ port, s.cancelEffect =
    { s with
      chest := s.chest.requestSweep .off Divisions.all,
      path := { s.path with port := port },
      raised := s.raised ++ [s.reported .run (.command .cancel .accepted none .stopping 0 0)] } := by
  refine ⟨abandonChestWrite false s.path.port, ?_⟩
  unfold State.cancelEffect
  rw [State.raise_installed _ _ hi, hi, ha]
  rfl

/-- COMMAND is raised, and STOPPING is entered (R142; log entry 14). -/
theorem State.cancelEffect_stops {s : State} {i : Installed} (hi : s.loader.installed = some i)
    (ha : s.run.announced = s.tracker.state) (ht : s.tracker.state ≠ .stopping) : s.cancelEffect =
    State.changeState .stopping .cancel { s with
      raised := s.raised ++ [s.reported .run (.command .cancel .accepted none s.tracker.state 0 0)] } := by
  unfold State.cancelEffect
  rw [State.raise_installed _ _ hi, hi, ha]
  exact if_neg ht

/-! ### The row -/

/-- The stage row takes its stage (log entry 28). -/
theorem exec_cancelAssert {s : State} (h : s.run.stage = .cancelAssert) :
    exec .cancelAssert s = .next s.runCancelAssert.pump :=
  if_pos h

/-- An assertion whose effect leaves the run controller outside WINDING: what is left of the frame event writes the run
controller's stage and timers only (R142, R144, R147, R148). -/
theorem cancelAsserted {s u : State} (hs : s.run.stage = .cancelAssert) (hu : s.cancelSeen.cancelEffect = u)
    (hw : u.path.waiting = none) (ha : u.run.announced ≠ .winding) : ∃ x m n t,
      exec .cancelAssert s = .next t
        ∧ sameButTraffic { u with run := { u.run with stage := x, limit := m, hold := n } } t := by
  obtain ⟨x, m, n, rest⟩ := State.runAfterCancel_outside ha
  exact ⟨x, m, n, pumped (exec_cancelAssert hs) (s.runCancelAssert_eq.trans (by rw [hu, rest])) hw⟩

end Sys2Proof.Machine

open Sys2Proof Sys2Proof.Machine

/-- Settles O48: by the tracker state the OFF sweep restarts or STOPPING is entered, and without a configuration CANCEL
is only held; what is left of the frame event is the run controller's alone. -/
theorem cancelAssertTaken : Obligations.CancelAssertTaken := by
  intro s hw hs ha
  refine ⟨fun hi => ?_, fun hi ht => ?_⟩
  · obtain ⟨i, hi⟩ := Option.ne_none_iff_exists'.1 hi
    by_cases ht : s.tracker.state = .stopping
    · obtain ⟨port, effect⟩ := State.cancelEffect_restarts (s := s.cancelSeen) (i := i) hi (ha.trans ht)
      obtain ⟨x, m, n, t, hexec, -, ⟨⟨_, _, _, rfl⟩, -⟩, -⟩ :=
        cancelAsserted hs effect hw (by rw [show s.cancelSeen.run.announced = _ from ha.trans ht]; nofun)
      exact ⟨_, hexec, rfl, rfl, rfl, fun _ => ⟨rfl, rfl, rfl, rfl⟩, fun h => absurd ht h, rfl, rfl, rfl⟩
    · have stops := State.cancelEffect_stops (s := s.cancelSeen) (i := i) hi ha ht
      obtain ⟨port, entered⟩ := State.changeState_stopping_anyPort (i := i) .cancel (s := { s.cancelSeen with
        raised := s.raised ++ [s.reported .run (.command .cancel .accepted none s.tracker.state 0 0)] }) hi
      obtain ⟨x, m, n, t, hexec, same⟩ := cancelAsserted hs (stops.trans entered) hw nofun
      have free : ∀ k, t.slot k = .free := fun k => (same.slot (by rintro ⟨e, rest, he, -⟩; cases he)).trans rfl
      have unfetched : t.admission.fetch = none := same.1 ▸ State.pump_fetch_unlisted hw rfl
      obtain ⟨-, ⟨⟨_, _, _, rfl⟩, unlisted, -⟩, -⟩ := same
      exact ⟨_, hexec, rfl, rfl, rfl, fun h => absurd h ht, fun _ => ⟨rfl, rfl, rfl, rfl, unlisted, unfetched, free,
        rfl, rfl, rfl, List.append_assoc s.raised _ _⟩, rfl, rfl, rfl⟩
  · have effect : s.cancelSeen.cancelEffect = s.cancelSeen := State.cancelEffect_uninstalled hi
    obtain ⟨x, m, n, t, hexec, -, ⟨⟨_, _, _, rfl⟩, -⟩, -⟩ :=
      cancelAsserted hs effect hw (by rw [show s.cancelSeen.run.announced = _ from ha.trans ht]; nofun)
    exact ⟨_, hexec, rfl, rfl, rfl, rfl, rfl, rfl⟩
end

section
/-! Writes of the run block words and of word 75 that no block takes further than the run controller: the copies, and the
commands without effect (R135 to R137, R139, R140, R143). -/

namespace Sys2Proof.Machine

/-! ### The copies (R135) -/

theorem runBlockAddress_lt (which : RunWord) : runBlockAddress which < 78 := by
  cases which <;> decide

theorem State.anchorSnoop_runBlock (which : RunWord) (v : Word) (s : State) :
    s.anchorSnoop (runBlockAddress which) v = s.runBlockCopy which v := by
  cases which <;> rfl

theorem accessOf_runBlockWrite (which : RunWord) (v : Word) :
    accessOf (.runBlockWrite which v) = some (.write (runBlockAddress which) v) := by
  cases which <;> rfl

/-- A run block word on a free port is stored, and the run controller takes its copy (R135). -/
theorem runBlockWrote (which : RunWord) (v : Word) {s : State} (hf : s.portFree) :
    ∃ t, exec (.runBlockWrite which v) s = .next t ∧
      sameButTraffic
        { s with
          mem := s.mem.write (runBlockAddress which) v,
          run := s.run.copyWord which v (s.loader.config == .loading) } t :=
  wrote (accessOf_runBlockWrite which v) hf (State.anchorWrite_free s _ v hf (runBlockAddress_lt which))
    (State.anchorSnoop_runBlock which v _) rfl

/-! ### Word 75 without an effect (R136) -/

/-- A write of word 75 on a free port is handed to the run controller (R136). -/
theorem State.word75_free {s : State} (v : Word) (hf : s.portFree) :
    s.processorWrite 75 v = ((s.store 75 v).command v).pump :=
  State.anchorWrite_free s 75 v hf (by decide)

/-- COMMAND_NONE has no effect (R136). -/
theorem State.command_zero (s : State) : s.command 0 = s := by
  unfold State.command
  split <;> rfl

/-- While UNCONFIGURED no command has an effect (R136). -/
theorem State.command_uninstalled {s : State} (v : Word) (h : s.loader.installed = none) : s.command v = s := by
  unfold State.command
  rw [h]

/-- A value of 4 or more names no command (R136). -/
theorem value_names_no_command {v : Word} (h : 4 ≤ v.toNat) : v ≠ 0 ∧ v ≠ 1 ∧ v ≠ 2 ∧ v ≠ 3 := by
  refine ⟨?_, ?_, ?_, ?_⟩ <;> rintro rfl <;> exact absurd h (by decide)

/-! ### Refusals (R137, R139, R140, R143) -/

/-- State s but for a COMMAND report with its result, at the tracker state announced (R136). -/
def State.withCommand (v : Word) (result : CommandResult) (reason : Option CommandReason) (s : State) : State :=
  { s with raised := s.raised ++
      [s.reported .run (.command (.written v) result reason s.run.announced 0 0)] }

theorem State.commandReport_eq {s : State} {i : Installed} (v : Word) (result : CommandResult)
    (reason : Option CommandReason) (hi : s.loader.installed = some i) :
    s.commandReport v result reason s.run.announced 0 0 = s.withCommand v result reason :=
  State.raise_installed _ _ hi

theorem State.takeStart_refused {s : State} {i : Installed} {reason : CommandReason}
    (hi : s.loader.installed = some i) (h : s.run.startRefusal s.loader.config i = some reason) :
    s.takeStart i = s.withCommand 1 .refused (some reason) := by
  unfold State.takeStart
  rw [h]
  exact State.commandReport_eq _ _ _ hi

theorem State.takeStop_refused {s : State} {i : Installed} {reason : CommandReason}
    (hi : s.loader.installed = some i) (h : s.run.stopRefusal = some reason) :
    s.takeStop = s.withCommand 2 .refused (some reason) := by
  unfold State.takeStop
  rw [h]
  exact State.commandReport_eq _ _ _ hi

theorem State.takeResume_refused {s : State} {i : Installed} {reason : CommandReason}
    (hi : s.loader.installed = some i) (h : s.run.resumeRefusal = some reason) :
    s.takeResume = s.withCommand 3 .refused (some reason) := by
  unfold State.takeResume
  rw [h]
  exact State.commandReport_eq _ _ _ hi

/-- A STOP is refused in IDLE and in STOPPING (R139). -/
theorem RunControl.stopRefusal_state {r : RunControl} (h : r.announced = .idle ∨ r.announced = .stopping) :
    r.stopRefusal = some .state := by
  unfold RunControl.stopRefusal
  rcases h with h | h <;> rw [h]

/-- A RESUME is refused outside HALTED (R140). -/
theorem RunControl.resumeRefusal_state {r : RunControl} (h : r.announced ≠ .halted) : r.resumeRefusal = some .state :=
  if_pos h

/-- A RESUME is refused while CANCEL is held (R140, R143). -/
theorem RunControl.resumeRefusal_cancelHeld {r : RunControl} (ha : r.announced = .halted) (hc : r.cancelHeld = true) :
    r.resumeRefusal = some .cancelHeld := by
  simp [RunControl.resumeRefusal, ha, hc]

/-- A write of word 75 on a free port that comes to its COMMAND report alone (R136). -/
theorem commandAnswered {c : Instr} {v : Word} {s u : State} {result : CommandResult}
    {reason : Option CommandReason} (hc : accessOf c = some (.write 75 v)) (hf : s.portFree)
    (h : s.processorWrite 75 v = u.pump) (hu : u = (s.store 75 v).withCommand v result reason) :
    ∃ t, exec c s = .next t ∧
      sameButTraffic
        { s with
          mem := s.mem.write 75 v,
          raised := s.raised ++
            [s.reported .run (.command (.written v) result reason s.run.announced 0 0)] } t :=
  wrote hc hf h hu rfl

end Sys2Proof.Machine

open Sys2Proof Sys2Proof.Machine

/-- Settles O14: each of the three words at its address. -/
theorem runBlockWriteCopied : Obligations.RunBlockWriteCopied :=
  fun v _ hf => ⟨runBlockWrote .stampLow v hf, runBlockWrote .stampHigh v hf, runBlockWrote .nominal v hf⟩

/-- Settles O19: the value 0, and a value that names no command without a configuration and with one. -/
theorem noneAndUnknownCommands : Obligations.NoneAndUnknownCommands := by
  intro v s hf
  refine ⟨wrote rfl hf (State.word75_free 0 hf) (State.command_zero _) rfl,
    fun _ hi => wrote rfl hf (State.word75_free v hf) (State.command_uninstalled v hi) rfl, fun hv hi hd => ?_⟩
  obtain ⟨i, hi⟩ := Option.ne_none_iff_exists'.1 hi
  obtain ⟨h0, h1, h2, h3⟩ := value_names_no_command hv
  have taken := State.commandWrite_free s v i hf hi hd h0
  rw [if_neg h1, if_neg h2, if_neg h3] at taken
  exact commandAnswered rfl hf taken (State.commandReport_eq v .unknown none (i := i) hi)

/-- Settles O21: each refused command by the first test it fails. -/
theorem commandsRefused : Obligations.CommandsRefused := by
  intro i s hf hi hd
  have start := State.commandWrite_free s 1 i hf hi hd (by decide)
  have stop := State.commandWrite_free s 2 i hf hi hd (by decide)
  have resume := State.commandWrite_free s 3 i hf hi hd (by decide)
  refine ⟨fun reason h => commandAnswered rfl hf start (State.takeStart_refused hi h),
    fun h => commandAnswered rfl hf stop (State.takeStop_refused (i := i) hi (RunControl.stopRefusal_state h)),
    fun h => commandAnswered rfl hf resume (State.takeResume_refused (i := i) hi (RunControl.resumeRefusal_state h)),
    fun ha hc => ?_⟩
  have refused := State.takeResume_refused (s := s.store 75 3) (i := i) hi (RunControl.resumeRefusal_cancelHeld ha hc)
  rw [← ha]
  exact commandAnswered rfl hf resume refused
end

section
/-! A processor access that waits behind the part, and writes of pickup words and of words that no block hears, by the
configuration state (R150, R151, R154, R155, R158, R163). -/

namespace Sys2Proof.Machine

/-! ### Waiting behind the part (R154, R155) -/

theorem State.wait_behindPart {s : State} (a : ProcAccess) (h : s.path.port.isSome = true) :
    s.wait a = { s with path := { s.path with waiting := some a, ready := false, yieldCount := 1 } } := by
  unfold State.wait
  rw [if_pos h]

/-! ### The words of the anchor block and who hears them (R151) -/

/-- A region or setting word and a division's held word are handed to no block. -/
theorem State.anchorSnoop_unheard {n : Nat} (v : Word) (s : State)
    (h : n < 24 ∨ (24 ≤ n ∧ n < 36 ∧ n % 3 ≠ 2)) : s.anchorSnoop n v = s := by
  unfold State.anchorSnoop
  rcases h with h | ⟨low, high, held⟩
  · rw [if_pos h]
  · rw [if_neg (by omega), if_pos high, if_neg held]

/-- Words 36 + 3k and 37 + 3k are the held words of pickup k. -/
theorem State.anchorSnoop_pickupHeld {n : Nat} (k : PickupNo) (v : Word) (s : State)
    (h : n = 36 + 3 * k.val ∨ n = 37 + 3 * k.val) : s.anchorSnoop n v = s.pickupHeldWrite k := by
  have hk := k.isLt
  have pickup : Fin.ofNat 12 ((n - 36) / 3) = k := Fin.ext (by simp; omega)
  unfold State.anchorSnoop
  rw [if_neg (by omega), if_neg (by omega), if_pos (by omega), pickup, if_neg (by omega)]

/-- Word 38 + 3k is the commit word of pickup k. -/
theorem State.anchorSnoop_pickupCommit (k : PickupNo) (v : Word) (s : State) :
    s.anchorSnoop (38 + 3 * k.val) v = s.pickupCommitWrite k v := by
  have hk := k.isLt
  have pickup : Fin.ofNat 12 ((38 + 3 * k.val - 36) / 3) = k := Fin.ext (by simp; omega)
  unfold State.anchorSnoop
  rw [if_neg (by omega), if_neg (by omega), if_pos (by omega), pickup, if_pos (by omega)]

/-! ### Pickup words with the port free (R158, R163) -/

/-- With the port free there is no read to discard: under a configuration that governs, a held word restarts the fetch
of its own pickup. -/
theorem State.pickupHeldWrite_free (k : PickupNo) {s : State} (hp : s.path.port = none) :
    s.pickupHeldWrite k = { s with loader := { s.loader with
      pickupGot :=
        if (s.loader.config = .configured ∨ s.loader.config = .deferred)
            ∧ s.loader.pickupList.head?.map (fun e => e.pickup) = some k then []
        else s.loader.pickupGot } } := by
  have undisturbed : ∀ b, abandonPickupRead b s.path.port = s.path.port := fun b => by rw [hp]; rfl
  unfold State.pickupHeldWrite
  by_cases hg : s.governed = true
  · have hc := s.governed_iff.1 hg
    simp only [if_pos hg, undisturbed, hc, true_and]
    unfold Loader.restartPickup pickupHead
    split <;> rfl
  · rw [if_neg hg, if_neg fun h => hg (s.governed_iff.2 h.1)]

/-- A listed pickup takes the new value in its place, and any other joins the end of the list (R163). -/
theorem pickupListAdd_eq (k : PickupNo) (v : Word) (l : List PickupFetch) : pickupListAdd k v l =
    if l.any (fun e => e.pickup == k) then
      l.map (fun e => if e.pickup = k then { pickup := k, carried := v } else e)
    else l ++ [{ pickup := k, carried := v }] := by
  have replaced : ∀ e : PickupFetch, (if e.pickup = k then { e with carried := v } else e) =
      if e.pickup = k then { pickup := k, carried := v } else e := fun e => by
    split
    · next h => rw [h]
    · rfl
  simp only [pickupListAdd, replaced]

theorem State.pickupCommitWrite_governed {s : State} (k : PickupNo) (v : Word) (hp : s.path.port = none)
    (hc : s.loader.config = .configured ∨ s.loader.config = .deferred) :
    s.pickupCommitWrite k v = { s with loader := { s.loader with
      pickupList :=
        if s.loader.pickupList.any (fun e => e.pickup == k) then
          s.loader.pickupList.map (fun e => if e.pickup = k then { pickup := k, carried := v } else e)
        else s.loader.pickupList ++ [{ pickup := k, carried := v }],
      pickupGot :=
        if s.loader.pickupList.head?.map (fun e => e.pickup) = some k then [] else s.loader.pickupGot } } := by
  unfold State.pickupCommitWrite
  rw [State.pickupHeldWrite_free k hp]
  rcases hc with hc | hc <;> simp [hc, pickupListAdd_eq]

theorem Loader.hasRead_eq (l : Loader) (n : Nat) : l.hasRead n = l.load.all (fun ws => decide (n < ws.length)) := by
  unfold Loader.hasRead
  cases l.load <;> rfl

theorem State.pickupCommitWrite_loading {s : State} (k : PickupNo) (v : Word) (hc : s.loader.config = .loading) :
    s.pickupCommitWrite k v = { s with
      loader :=
        if s.loader.load.all (fun ws => decide (38 + 3 * k.val < ws.length)) = true then
          { s.loader with noted := s.loader.noted.set k (some v) }
        else s.loader } := by
  unfold State.pickupCommitWrite
  simp only [hc, Loader.hasRead_eq]
  split <;> rfl

theorem State.pickupCommitWrite_unconfigured {s : State} (k : PickupNo) (v : Word)
    (hc : s.loader.config = .unconfigured) : s.pickupCommitWrite k v = s := by
  unfold State.pickupCommitWrite
  rw [hc]

/-! ### Writes that are stored and no more (R150) -/

/-- A write that is neither dropped, inverted nor heard by a block is stored and does nothing else. -/
theorem storedOnly {c : Instr} {n : Nat} {v : Word} {s : State} (hc : accessOf c = some (.write n v)) (hf : s.portFree)
    (kept : s.dropped n = none) (plain : s.inverts n = false) (unheard : (s.store n v).snoop n v = s.store n v) :
    ∃ t, exec c s = .next t ∧ sameButTraffic { s with mem := s.mem.write n v } t := by
  refine wrote hc hf (State.processorWrite_free s n v hf kept) ?_ rfl
  rw [plain]
  exact unheard

/-- A word of region Other is neither dropped nor inverted (R57, R150). -/
theorem State.other_plain {s : State} {n : Nat} (h : regionOf s.loader.installed n = .other) :
    s.dropped n = none ∧ s.inverts n = false := by
  constructor
  · unfold State.dropped
    rw [h]
  · rw [Bool.eq_false_iff, ne_eq, State.inverts_iff]
    rintro ⟨i, hi, hr, -⟩
    rw [hi, hr] at h
    cases h

end Sys2Proof.Machine

open Sys2Proof Sys2Proof.Machine

/-- Settles O10: the access is not dropped at its decode, so it is held on READY. -/
theorem accessWaitsBehindThePart : Obligations.AccessWaitsBehindThePart := by
  intro c a s hc hp hb hd
  have held : s.path.port.isSome = true := Option.isSome_iff_ne_none.2 hp
  have kept : s.droppedAccess a = none := by
    cases a with
    | read n => rfl
    | write n v => simp [State.droppedAccess, hd n v rfl]
  rw [exec_access hc, State.access_waits s a hb held kept, State.wait_behindPart a held]

/-- Settles O18: the commit word is stored, and the loader takes it by the configuration state. -/
theorem pickupCommitListed : Obligations.PickupCommitListed := by
  intro k v s hf
  refine wrote rfl hf (State.anchorWrite_free s (38 + 3 * k.val) v hf (by omega)) ?_ rfl
  rw [State.anchorSnoop_pickupCommit]
  cases hc : s.loader.config with
  | unconfigured => exact State.pickupCommitWrite_unconfigured k v (by exact hc)
  | loading => exact State.pickupCommitWrite_loading k v (by exact hc)
  | configured => exact State.pickupCommitWrite_governed k v (by exact hf.1) (.inl hc)
  | deferred => exact State.pickupCommitWrite_governed k v (by exact hf.1) (.inr hc)

/-- Settles O13: the words that no block hears, and the held words of a pickup. -/
theorem otherWriteTaken : Obligations.OtherWriteTaken := by
  intro a v s hf
  refine ⟨fun h => ?_, fun k hk => ?_⟩
  · rcases h with other | words
    · obtain ⟨kept, plain⟩ := State.other_plain other
      exact storedOnly rfl hf kept plain (State.snoop_unheard v (.inl (by exact other)))
    · have anchor : a.toNat < 78 := by omega
      exact wrote rfl hf (State.anchorWrite_free s _ v hf anchor) (State.anchorSnoop_unheard v _ words) rfl
  · have anchor : a.toNat < 78 := by omega
    refine wrote rfl hf (State.anchorWrite_free s _ v hf anchor) ?_ rfl
    rw [State.anchorSnoop_pickupHeld k v _ hk, State.pickupHeldWrite_free k (by exact hf.1)]
    rfl
end

section
/-! What completes with the access on the port, a processor access from its arrival, and every row: none of them writes
the queue of commands (R150). -/

namespace Sys2Proof.Machine

@[simp] theorem State.complete_pending (a : PortAccess) (s : State) : (s.complete a).pending = s.pending := by
  cases a with
  | chestWrite e live => exact State.finishChestWrite_pending live _
  | fetchRead n discard =>
    cases discard
    · exact s.fetchWord_pending _
    · rfl
  | anchorRead n discard =>
    cases discard
    · exact s.anchorReadWord_pending _
    · rfl
  | pickupRead n discard =>
    cases discard
    · exact s.pickupWord_pending _
    · rfl
  | writeBack n v => rfl
  | reportWrite n v discard =>
    cases discard
    · exact State.finishReportWrite_pending _
    · rfl
  | procRead n inverted => rfl
  | procWrite n v => exact State.snoop_pending n v _

@[simp] theorem State.portDone_pending (s : State) : s.portDone.pending = s.pending := by
  cases hp : s.path.port with
  | none => simp [State.portDone, hp]
  | some a => simp [State.portDone_access hp]

@[simp] theorem State.driveProcessor_pending (s : State) : s.driveProcessor.pending = s.pending := by
  unfold State.driveProcessor
  split
  · split
    · exact s.portDone_pending
    · exact s.grantWriteBack_pending
  · rfl

@[simp] theorem State.flushProcessor_pending (s : State) : s.flushProcessor.pending = s.pending := by
  simp [State.flushProcessor]

@[simp] theorem State.makeAccess_pending (a : ProcAccess) (s : State) : (s.makeAccess a).pending = s.pending := by
  cases a with
  | read n => rfl
  | write n v => exact State.snoop_pending n _ _

/-- A processor access is dropped, waits or is made, behind the completion of the one before (R150, R154). -/
@[simp] theorem State.access_pending (a : ProcAccess) (s : State) : (s.access a).pending = s.pending := by
  unfold State.access
  dsimp only
  split
  · simp
  · split <;> simp

/-! ### Rows -/

/-- The answer is a next state with the queue of commands of s, as O2 asks of every command. -/
def Answers (s : State) (x : Answer) : Prop := ∃ t, x = .next t ∧ t.pending = s.pending

theorem Answers.next {s t : State} (h : t.pending = s.pending) : Answers s (.next t) := ⟨t, rfl, h⟩

/-- A row that takes effect on a condition, or changes nothing. -/
theorem Answers.ite {s u : State} {p : Prop} [Decidable p] (h : u.pending = s.pending) :
    Answers s (if p then .next u else .next s) := by
  split
  · exact .next h
  · exact .next rfl

theorem execPendingOnWrite_answers (s : State) : Answers s (execPendingOnWrite s) := by
  unfold execPendingOnWrite
  split
  · exact .ite (State.pump_pending _)
  · exact .next rfl

theorem execRelease_answers (s : State) : Answers s (execRelease s) := by
  unfold execRelease
  split
  · exact .ite (by simp)
  · exact .next rfl

theorem execSweepWrite_answers (s : State) : Answers s (execSweepWrite s) := by
  unfold execSweepWrite
  split
  · exact .ite (State.pump_pending _)
  · exact .next rfl

theorem execSweepEnd_answers (s : State) : Answers s (execSweepEnd s) := by
  unfold execSweepEnd
  split
  · exact .next rfl
  · refine .next ((State.pump_pending _).trans ?_)
    split
    · exact s.endOff_pending
    · exact State.takeSweepEnd_pending _ s

theorem execReportTaken_answers (b : Block) (s : State) : Answers s (execReportTaken b s) := by
  unfold execReportTaken
  dsimp only
  split
  · exact .next rfl
  · split
    · exact .next rfl
    · exact .next (s.reportsFor_pending b)

theorem execRecordWriteBegin_answers (s : State) : Answers s (execRecordWriteBegin s) := by
  unfold execRecordWriteBegin
  split
  · exact .next rfl
  · exact .next (State.pump_pending _)

theorem execRefreshBegin_answers (s : State) : Answers s (execRefreshBegin s) := by
  unfold execRefreshBegin
  split
  · exact .next rfl
  · exact .ite (by simp)

/-- Every row answers a next state and leaves the queue of commands as it is. -/
theorem exec_answers (c : Instr) (s : State) : Answers s (exec c s) := by
  have completed : (exec c s = .next s.portDone ∨ exec c s = .next s) → Answers s (exec c s) := fun h => by
    rcases h with h | h <;> rw [h]
    · exact .next s.portDone_pending
    · exact .next rfl
  cases c with
  | reset => exact .next (by simp)
  | fetchReadDone => exact completed (by simp only [exec, execFetchReadDone]; split <;> simp)
  | pickupReadDone => exact completed (by simp only [exec, execPickupReadDone]; split <;> simp)
  | anchorReadDone => exact completed (by simp only [exec, execAnchorReadDone]; split <;> simp)
  | chestWriteDone => exact completed (by simp only [exec, execChestWriteDone]; split <;> simp)
  | reportWordDone => exact completed (by simp only [exec, execReportWordDone]; split <;> simp)
  | portAccessDone => exact completed (.inl rfl)
  | writeBackGrant => exact .next s.grantWriteBack_pending
  | frameStart x w o => exact .next (by simp)
  | repeatGapDue => exact .next s.markDue_pending
  | pendingOnWrite => exact execPendingOnWrite_answers s
  | waitExpiry => exact .next (by simp)
  | windowClose => exact .next (by simp)
  | staleWaitClearAnswer => exact .next (by simp)
  | cancelAssert => exact .ite (by simp)
  | cancelRelease => exact .ite (by simp)
  | windDrop => exact .ite (by simp)
  | windConfirmed => exact .ite (by simp)
  | windLimit => exact .ite (by simp)
  | holdExpiry => exact .ite s.runHold_pending
  | slotEvent k b => exact .next (by simp)
  | timeout k => exact .next (s.takeTimeout_pending k)
  | release => exact execRelease_answers s
  | sweepWrite => exact execSweepWrite_answers s
  | sweepEnd => exact execSweepEnd_answers s
  | reportTaken b => exact execReportTaken_answers b s
  | recordWriteBegin => exact execRecordWriteBegin_answers s
  | refreshBegin => exact execRefreshBegin_answers s
  | scoreCommit | emptyCommit | scoreEdit | chestWrite | chestRead | logStatusWrite | stopMaskWrite | pickupCommit
  | runBlockWrite | commandNone | start | stop | resume | commandUnknown | consumerIndexWrite | anchorCommit
  | otherWrite => exact .next (State.access_pending _ s)

end Sys2Proof.Machine

open Sys2Proof Sys2Proof.Machine

/-- Settles O2: row by row, each answering the state that its operations leave. -/
theorem everyCommandCompletes : Obligations.EveryCommandCompletes := fun c s => exec_answers c s
end

section
/-! A completed word of the report writer's task, and the consumer index from the processor (R167, R169 to R171). -/

namespace Sys2Proof.Machine

/-- REPORT_WORD_DONE completes the word on the port (R167, R171). -/
theorem exec_reportWordDone {s : State} {a : Nat} {v : Word} {discard : Bool}
    (h : s.path.port = some (.reportWrite a v discard)) :
    exec .reportWordDone s = .next
      (State.complete (.reportWrite a v discard) { s with path := { s.path with port := none } }).pump := by
  show execReportWordDone s = _
  unfold execReportWordDone
  rw [h]
  simp only [State.portDone_access h]

/-- The task after its first word: the words left, the write of the new P behind a record, or no task (R167, R170,
R171). -/
theorem ReportWriter.wordDone_eq {w : ReportWriter} {k : TaskKind} {x : Nat × Word} {rest : List (Nat × Word)}
    (i : Installed) (h : w.task = some { kind := k, words := x :: rest }) :
    w.wordDone i =
      if rest ≠ [] then { w with task := some { kind := k, words := rest } }
      else if k = .record then
        { w with
          producer := (w.producer + 1) % i.logCount,
          attn := (w.producer + 1) % i.logCount != w.consumer,
          task := some
            { kind := .producerWord,
              words := [(i.statusBase + 11, capped ((w.producer + 1) % i.logCount))] } }
      else { w with task := none } := by
  unfold ReportWriter.wordDone
  rw [h]
  cases rest with
  | cons y rest => rfl
  | nil => cases k <;> rfl

/-- The installed log has the report writer take the completed word (R167). -/
theorem State.finishReportWrite_installed {s : State} {i : Installed} (hi : s.loader.installed = some i) :
    s.finishReportWrite = { s with report := s.report.wordDone i } := by
  unfold State.finishReportWrite
  rw [hi]

/-- Word 76 is the consumer index, which a log of N places takes below N (R169, R170). -/
theorem State.anchorSnoop_consumer (v : Word) (s : State) : s.anchorSnoop 76 v = { s with
    report :=
      match s.loader.installed with
      | none => s.report
      | some i =>
        if v.toNat < i.logCount then
          { s.report with consumer := v.toNat, attn := s.report.producer != v.toNat }
        else s.report } := by
  show s.consumerWrite v = _
  unfold State.consumerWrite
  cases s.loader.installed <;> rfl

end Sys2Proof.Machine

open Sys2Proof Sys2Proof.Machine

/-- Settles O33: the word is stored, and the report writer's task goes on by the words it has left. -/
theorem reportWordDoneAdvances : Obligations.ReportWordDoneAdvances := by
  intro a v i k x rest s hw hp hi htask
  refine pumped (exec_reportWordDone hp) ?_ hw
  show State.finishReportWrite _ = _
  rw [State.finishReportWrite_installed (i := i) (by exact hi), ReportWriter.wordDone_eq i (by exact htask)]
  rfl

/-- Settles O15: word 76 is stored, and the report writer takes it by the log that is installed. -/
theorem consumerIndexWriteTaken : Obligations.ConsumerIndexWriteTaken :=
  fun v s hf => wrote rfl hf (State.anchorWrite_free s 76 v hf (by decide)) (State.anchorSnoop_consumer v _) rfl
end

section
/-! The begin of a record write (R166 to R168, R173), and the eight words of a record (R178). -/

namespace Sys2Proof.Machine

/-! ### The words of a record (R178) -/

/-- A record of a known report has its words in the layout of R178, from the details of its kind. -/
theorem Record.words_eq {r : Record} {e : Report} {code subject : Nat} {a b c : Word} (h : r.report = e)
    (details : Record.body { r with report := e } = ⟨code, subject, a, b, c⟩) :
    r.words = logRecord code subject a b c r := by
  subst h
  have body : r.body = ⟨code, subject, a, b, c⟩ := details
  unfold Record.words
  rw [body]
  rfl

/-- The subject field holds no more than 2 047, so a subject cut to it beforehand leaves the same record. -/
theorem logRecord_cut (code subject : Nat) (a b c : Word) (r : Record) :
    logRecord code (min subject 2047) a b c r = logRecord code subject a b c r := by
  simp [logRecord]

/-! ### The begin of a record write (R166 to R168, R173) -/

theorem ReportWriter.room_iff (i : Installed) (w : ReportWriter) :
    w.room i = true ↔ (w.producer + 1) % i.logCount ≠ w.consumer := bne_iff_ne

theorem ReportWriter.recordMayBegin_iff (w : ReportWriter) :
    w.recordMayBegin = true ↔ w.task = none ∧ w.refreshDue = false := by
  simp [ReportWriter.recordMayBegin]

section
variable {w : ReportWriter} {i : Installed} (now : Frame) (position : Nat)

/-- Losses counted and room in the log: a LOST record is begun ahead of the queue (R168). -/
theorem ReportWriter.beginRecord_lost (may : w.recordMayBegin = true) (hl : 0 < w.lostCount) (room : w.room i = true) :
    w.beginRecord i now position =
      { w.writeRecord i { report := .lost w.lostCount, frame := now, position := position } with lostCount := 0 } := by
  unfold ReportWriter.beginRecord
  rw [if_pos may, if_pos ⟨hl, room⟩]

/-- No loss counted and room in the log: the queue's head is begun (R167). -/
theorem ReportWriter.beginRecord_head {r : Record} {q : List Record} (may : w.recordMayBegin = true)
    (hl : w.lostCount = 0) (hq : w.queue = r :: q) (room : w.room i = true) :
    w.beginRecord i now position = { w.writeRecord i r with queue := q } := by
  unfold ReportWriter.beginRecord
  rw [if_pos may, if_neg fun ⟨losses, _⟩ => losses.ne' hl, hq]
  exact if_pos room

/-- The log full: the queue's head leaves and is counted as lost (R168). -/
theorem ReportWriter.beginRecord_full {r : Record} {q : List Record} (may : w.recordMayBegin = true)
    (hq : w.queue = r :: q) (full : ¬ w.room i = true) :
    w.beginRecord i now position = { w.countLoss with queue := q } := by
  unfold ReportWriter.beginRecord
  rw [if_pos may, if_neg fun ⟨_, room⟩ => full room, hq]
  exact if_neg full

end

theorem exec_recordWriteBegin {s : State} {i : Installed} (hi : s.loader.installed = some i) :
    exec .recordWriteBegin s = .next
      (State.pump { s with report := s.report.beginRecord i s.link.frame s.tracker.integer }) := by
  show execRecordWriteBegin s = _
  unfold execRecordWriteBegin
  rw [hi]

/-- RECORD_WRITE_BEGIN leaves what the report writer makes of it. -/
theorem recordBegun {s : State} {i : Installed} {w : ReportWriter} (hi : s.loader.installed = some i)
    (hw : s.path.waiting = none) (h : s.report.beginRecord i s.link.frame s.tracker.integer = w) :
    ∃ t, exec .recordWriteBegin s = .next t ∧ sameButTraffic { s with report := w } t :=
  pumped (exec_recordWriteBegin hi) (by rw [h]) hw

end Sys2Proof.Machine

open Sys2Proof Sys2Proof.Machine

/-- Settles O59: the codes, the table of R178 kind by kind, and the begin of a record write by the losses counted and
the room in the log. -/
theorem recordWriteBegins : Obligations.RecordWriteBegins := by
  refine ⟨by decide, fun r n count f hn hcount h1 h0 => ?_, fun i s hw hi htask hdue => ?_⟩
  · obtain rfl : n = lowHalf := funext hn
    obtain rfl : count = capped := funext hcount
    obtain rfl : f = bitNat := funext fun b => by cases b <;> assumption
    refine ⟨?state, ?matched, ?miss, ?stray, ?release, ?mark, ?tempoSet, ?formError, ?lateDiscard, ?queueFull,
      ?cueFull, ?admitOverrun, ?withdrawn, ?starvedSlot, ?starvedNone, ?unmatchedOff, ?holderOverflow, ?protectDrop,
      ?pickup, ?windReady, ?windLimit, ?windDropped, ?anchorDeferred, ?anchorLoaded, ?signature, ?check, ?range,
      ?limits, ?region, ?written, ?cancel, ?lost, ?waitExpired, ?rangeEnd⟩
    case matched => exact fun _ _ _ ks h => ⟨contributorSet ks, contributorSet_bit ks, Record.words_eq h rfl⟩
    case stray =>
      exact fun _ _ ks _ h => ⟨contributorSet ks, contributorSet_bit ks,
        (Record.words_eq h rfl).trans (logRecord_cut ..)⟩
    all_goals
      intros
      exact Record.words_eq ‹r.report = _› rfl
  · have may := s.report.recordMayBegin_iff.2 ⟨htask, hdue⟩
    refine ⟨fun hl room => ?_, fun r q hl hq room => ?_, fun r q hq full => ?_⟩
    · exact recordBegun hi hw (ReportWriter.beginRecord_lost _ _ may hl ((s.report.room_iff i).2 room))
    · exact recordBegun hi hw (ReportWriter.beginRecord_head _ _ may hl hq ((s.report.room_iff i).2 room))
    · exact recordBegun hi hw
        (ReportWriter.beginRecord_full _ _ may hq fun room => (s.report.room_iff i).1 room full)
end

section
/-! The begin of a refresh, and the copy of the sixteen status words (R171 to R173, R180). -/

namespace Sys2Proof.Machine

/-- The copy of R172 in the layouts of R180: `k` gives the pickups' state codes, by which words 8 to 10 are packed. -/
theorem State.statusWords_eq (s : State) (fifo : Nat) (g : Word) {k : PickupNo → Nat}
    (hk : ∀ n, k n = s.link.pickups[n].state.code) :
    s.statusWords fifo g =
      [g,
       lowHalf (s.tracker.state.code + 16 * s.loader.config.code + 256 * bitNat s.release.starved
         + 512 * bitNat (s.run.wind == .confirmed) + 1024 * bitNat s.chest.protectSeen
         + 2048 * bitNat (s.loader.config == .deferred)),
       lowHalf s.tracker.integer, highHalf s.tracker.integer, capped s.tracker.tempo,
       capped s.release.hold.length, capped s.matcher.cues.length,
       lowHalf (s.admission.list.length + 256 * fifo),
       lowHalf (k 0 + 16 * k 1 + 256 * k 2 + 4096 * k 3),
       lowHalf (k 4 + 16 * k 5 + 256 * k 6 + 4096 * k 7),
       lowHalf (k 8 + 16 * k 9 + 256 * k 10 + 4096 * k 11),
       capped s.report.producer, lowHalf s.link.frame.toNat, highHalf s.link.frame.toNat,
       capped s.report.lostTotal, g] := by
  obtain rfl : k = fun n => s.link.pickups[n].state.code := funext hk
  rfl

/-- The refresh takes the copy into its task, under the new generation (R171). -/
theorem State.beginRefresh_copy {s : State} {ws : List Word} (i : Installed)
    (copy : s.statusWords s.fifoCount (s.report.generation + 1) = ws) :
    s.beginRefresh i =
      { s with report := { s.report with
          generation := s.report.generation + 1, refreshDue := false,
          task := some { kind := .refresh, words := addressed i.statusBase ws } } } := by
  subst copy
  rfl

/-- A due refresh with no task in progress begins (R171, R173). -/
theorem exec_refreshBegin {s : State} {i : Installed} (hi : s.loader.installed = some i)
    (due : s.report.refreshDue = true) (free : s.report.task = none) :
    exec .refreshBegin s = .next (s.beginRefresh i).pump := by
  have begins : (s.report.refreshDue && s.report.task.isNone) = true := by rw [due, free]; rfl
  show execRefreshBegin s = _
  unfold execRefreshBegin
  rw [hi]
  exact if_pos begins

end Sys2Proof.Machine

open Sys2Proof Sys2Proof.Machine

/-- Settles O60: the refresh begins, and its task holds the copy in the layouts of R180. -/
theorem refreshBegins : Obligations.RefreshBegins := by
  intro i k f s hw hi due free hk h1 h0
  obtain rfl : f = bitNat := funext fun b => by cases b <;> assumption
  exact pumped (exec_refreshBegin hi due free) (State.beginRefresh_copy i (s.statusWords_eq _ _ hk)) hw
end

section
/-! What a row can do to the organ memory: words are stored, one after another, by the accesses that it completes or
makes (R150, R151, R154), and no other operation writes it. -/

namespace Sys2Proof.Machine

/-- Memory n is memory m with words stored one after another. -/
def Memory.StoredTo (m n : Memory) : Prop :=
  Relation.ReflTransGen (fun m n : Memory => ∃ a v, n = m.write a v) m n

/-- Stored words keep the canonical form. -/
theorem Memory.StoredTo.wf {m n : Memory} (h : m.StoredTo n) (hm : Memory.wf m = true) : Memory.wf n = true := by
  induction h with
  | refl => exact hm
  | tail _ stored ih =>
    obtain ⟨a, v, rfl⟩ := stored
    exact Memory.wf_write _ a v ih

/-- State t's memory is state s's with words stored one after another. -/
def State.Stores (s t : State) : Prop := s.mem.StoredTo t.mem

theorem State.Stores.same {s t : State} (h : t.mem = s.mem) : s.Stores t := by
  unfold State.Stores; rw [h]; exact .refl

theorem State.Stores.word {s t : State} {a : Nat} {v : Word} (h : t.mem = s.mem.write a v) : s.Stores t :=
  .single ⟨a, v, h⟩

theorem State.Stores.trans {s t u : State} (h : s.Stores t) (k : t.Stores u) : s.Stores u :=
  Relation.ReflTransGen.trans h k

/-- A step that leaves memory alone may follow. -/
theorem State.Stores.to {s t u : State} (h : s.Stores t) (k : u.mem = t.mem) : s.Stores u :=
  h.trans (.same k)

/-! ### The port (R150, R151, R154) -/

/-- What completes with an access: a write stores its word, and a read leaves memory alone. -/
theorem State.complete_stores (a : PortAccess) (s : State) : s.Stores (s.complete a) := by
  cases a with
  | chestWrite e live => exact .word (State.finishChestWrite_mem live _)
  | fetchRead n discard =>
    cases discard
    · exact .same (s.fetchWord_mem _)
    · exact .same rfl
  | anchorRead n discard =>
    cases discard
    · exact .same (s.anchorReadWord_mem _)
    · exact .same rfl
  | pickupRead n discard =>
    cases discard
    · exact .same (s.pickupWord_mem _)
    · exact .same rfl
  | writeBack n v => exact .word rfl
  | reportWrite n v discard =>
    cases discard
    · exact .word (State.finishReportWrite_mem _)
    · exact .word rfl
  | procRead n inverted => exact .same rfl
  | procWrite n v => exact .word (State.snoop_mem n v _)

theorem State.portDone_stores (s : State) : s.Stores s.portDone := by
  cases hp : s.path.port with
  | none =>
    refine .same ?_
    simp [State.portDone, hp]
  | some a =>
    rw [State.portDone_access hp]
    have completed := State.complete_stores a { s with path := { s.path with port := none } }
    exact completed.to (State.pump_mem _)

theorem State.driveProcessor_stores (s : State) : s.Stores s.driveProcessor := by
  unfold State.driveProcessor
  split
  · split
    · exact s.portDone_stores
    · exact .same s.grantWriteBack_mem
  · exact .same rfl

theorem State.flushProcessor_stores (s : State) : s.Stores s.flushProcessor :=
  have drive := State.driveProcessor_stores
  (((((drive s).trans (drive _)).trans (drive _)).trans (drive _)).trans (drive _)).trans (drive _)

theorem State.makeAccess_stores (a : ProcAccess) (s : State) : s.Stores (s.makeAccess a) := by
  cases a with
  | read n => exact .same rfl
  | write n v => exact .word (State.snoop_mem n _ _)

/-- A processor access stores what the accesses before it store, and then its own word, if it is made. -/
theorem State.access_stores (a : ProcAccess) (s : State) : s.Stores (s.access a) := by
  refine s.flushProcessor_stores.trans ?_
  unfold State.access
  dsimp only
  split
  · exact .same (State.drop_mem _ _ _ _)
  · split
    · exact .same rfl
    · exact (State.makeAccess_stores a _).to (State.pump_mem _)

/-! ### Rows -/

/-- The answer is a next state with the memory of s. -/
def LeavesMemory (s : State) (x : Answer) : Prop := ∃ t, x = .next t ∧ t.mem = s.mem

theorem LeavesMemory.next {s t : State} (h : t.mem = s.mem) : LeavesMemory s (.next t) := ⟨t, rfl, h⟩

/-- A row that takes effect on a condition, or changes nothing. -/
theorem LeavesMemory.ite {s u : State} {p : Prop} [Decidable p] (h : u.mem = s.mem) :
    LeavesMemory s (if p then .next u else .next s) := by
  split
  · exact .next h
  · exact .next rfl

theorem execPendingOnWrite_memory (s : State) : LeavesMemory s (execPendingOnWrite s) := by
  unfold execPendingOnWrite
  split
  · exact .ite (State.pump_mem _)
  · exact .next rfl

theorem execRelease_memory (s : State) : LeavesMemory s (execRelease s) := by
  unfold execRelease
  split
  · exact .ite (by simp)
  · exact .next rfl

theorem execSweepWrite_memory (s : State) : LeavesMemory s (execSweepWrite s) := by
  unfold execSweepWrite
  split
  · exact .ite (State.pump_mem _)
  · exact .next rfl

theorem execSweepEnd_memory (s : State) : LeavesMemory s (execSweepEnd s) := by
  unfold execSweepEnd
  split
  · exact .next rfl
  · refine .next ((State.pump_mem _).trans ?_)
    split
    · exact s.endOff_mem
    · exact State.takeSweepEnd_mem _ s

theorem execReportTaken_memory (b : Block) (s : State) : LeavesMemory s (execReportTaken b s) := by
  unfold execReportTaken
  dsimp only
  split
  · exact .next rfl
  · split
    · exact .next rfl
    · exact .next (s.reportsFor_mem b)

theorem execRecordWriteBegin_memory (s : State) : LeavesMemory s (execRecordWriteBegin s) := by
  unfold execRecordWriteBegin
  split
  · exact .next rfl
  · exact .next (State.pump_mem _)

theorem execRefreshBegin_memory (s : State) : LeavesMemory s (execRefreshBegin s) := by
  unfold execRefreshBegin
  split
  · exact .next rfl
  · exact .ite (by simp)

/-- A row is a processor access, or completes the access on the port, or leaves memory alone. -/
theorem exec_memory (c : Instr) (s : State) :
    (∃ a, exec c s = .next (s.access a)) ∨ exec c s = .next s.portDone ∨ LeavesMemory s (exec c s) := by
  have completed : (exec c s = .next s.portDone ∨ exec c s = .next s) →
      exec c s = .next s.portDone ∨ LeavesMemory s (exec c s) :=
    .imp_right fun idle => ⟨s, idle, rfl⟩
  cases c with
  | scoreCommit | emptyCommit | scoreEdit | chestWrite | chestRead | logStatusWrite | stopMaskWrite | pickupCommit
  | runBlockWrite | commandNone | start | stop | resume | commandUnknown | consumerIndexWrite | anchorCommit
  | otherWrite => exact .inl ⟨_, rfl⟩
  | portAccessDone => exact .inr (.inl rfl)
  | fetchReadDone => exact .inr (completed (by simp only [exec, execFetchReadDone]; split <;> simp))
  | pickupReadDone => exact .inr (completed (by simp only [exec, execPickupReadDone]; split <;> simp))
  | anchorReadDone => exact .inr (completed (by simp only [exec, execAnchorReadDone]; split <;> simp))
  | chestWriteDone => exact .inr (completed (by simp only [exec, execChestWriteDone]; split <;> simp))
  | reportWordDone => exact .inr (completed (by simp only [exec, execReportWordDone]; split <;> simp))
  | reset | frameStart | waitExpiry | windowClose | staleWaitClearAnswer | slotEvent =>
    exact .inr (.inr (.next (by simp)))
  | cancelAssert | cancelRelease | windDrop | windConfirmed | windLimit => exact .inr (.inr (.ite (by simp)))
  | holdExpiry => exact .inr (.inr (.ite s.runHold_mem))
  | writeBackGrant => exact .inr (.inr (.next s.grantWriteBack_mem))
  | repeatGapDue => exact .inr (.inr (.next s.markDue_mem))
  | timeout k => exact .inr (.inr (.next (s.takeTimeout_mem k)))
  | pendingOnWrite => exact .inr (.inr (execPendingOnWrite_memory s))
  | release => exact .inr (.inr (execRelease_memory s))
  | sweepWrite => exact .inr (.inr (execSweepWrite_memory s))
  | sweepEnd => exact .inr (.inr (execSweepEnd_memory s))
  | reportTaken b => exact .inr (.inr (execReportTaken_memory b s))
  | recordWriteBegin => exact .inr (.inr (execRecordWriteBegin_memory s))
  | refreshBegin => exact .inr (.inr (execRefreshBegin_memory s))

theorem exec_stores (c : Instr) {s t : State} (h : exec c s = .next t) : s.Stores t := by
  rcases exec_memory c s with ⟨a, access⟩ | done | ⟨u, left, same⟩
  · rw [access] at h; cases h
    exact s.access_stores a
  · rw [done] at h; cases h
    exact s.portDone_stores
  · rw [left] at h; cases h
    exact .same same

/-! ### The step -/

theorem step_front (c : Instr) (rest : List Instr) (s : State) :
    step { s with pending := c :: rest } = exec c { s with pending := rest } := rfl

/-- On an empty queue the block idles (log entry 2). -/
theorem step_idle {s : State} (h : s.pending = []) : step s = .next s := by
  unfold step
  rw [h]

theorem step_stores {s t : State} (h : step s = .next t) : s.Stores t := by
  cases hp : s.pending with
  | nil =>
    rw [step_idle hp] at h; cases h
    exact .same rfl
  | cons c rest =>
    have front : step s = exec c { s with pending := rest } := by
      rw [← step_front c rest s, ← hp]
    exact exec_stores (s := { s with pending := rest }) c (front ▸ h)

/-! ### The tables of the ledger (R2, R38) -/

/-- The slot map and the sounding table are in canonical form. -/
structure Ledger.Canonical (h : Ledger) : Prop where
  slots    : Table.wf SlotState.free h.slots = true
  sounding : Table.wf SoundEntry.quiet h.sounding = true

theorem Ledger.Move.sounding_wf {C : Prop} {h k : Ledger} (m : h.Move C k)
    (hw : Table.wf SoundEntry.quiet h.sounding = true) : Table.wf SoundEntry.quiet k.sounding = true := by
  cases m with
  | sounded => exact Table.wf_set _ _ _ hw
  | soundingMapped f => exact Table.wf_mapValues f _ hw
  | soundingReset => rfl
  | _ => exact hw

theorem Ledger.Move.canonical {C : Prop} {h k : Ledger} (m : h.Move C k) (w : h.Canonical) : k.Canonical :=
  ⟨m.slots_wf w.slots, m.sounding_wf w.sounding⟩

theorem State.tablesCanonical_iff (s : State) :
    s.tablesCanonical = true ↔ Memory.wf s.mem = true ∧ s.ledger.Canonical := by
  simp only [State.tablesCanonical, Bool.and_eq_true]
  exact ⟨fun ⟨⟨mem, slots⟩, sounding⟩ => ⟨mem, slots, sounding⟩,
    fun ⟨mem, slots, sounding⟩ => ⟨⟨mem, slots⟩, sounding⟩⟩

end Sys2Proof.Machine

open Sys2Proof Sys2Proof.Machine

/-- Settles O6: a step stores words in the memory, which keeps its form, and leads the slot map and the sounding table on
by primitive changes of the ledger, each of which keeps theirs. -/
theorem stepKeepsTablesCanonical : Obligations.StepKeepsTablesCanonical := by
  intro s t hs hst
  obtain ⟨mem, tables⟩ := s.tablesCanonical_iff.1 hs
  have leads : s.Leads False t := step_leads False.elim hst
  exact t.tablesCanonical_iff.2 ⟨Memory.StoredTo.wf (step_stores hst) mem, leads.keeps Ledger.Move.canonical tables⟩

/-- Settles O1: the two answers of a step, by its queue. -/
theorem stepTakesFrontCommand : Obligations.StepTakesFrontCommand :=
  ⟨step_front, fun _ => step_idle⟩
end
